-- ==== Sys2Proof/Word.lean ====
section
/-! DEFINITION. The word types of the Hemtara 4816: bytes of its serial lines, the 40-bit position
counters, the half-counts in which centres and registration errors are carried, and the four-bit
values of the code cells (R1, R2, R15). -/

namespace Sys2Proof

/-- One byte of a serial line. -/
abbrev Byte := BitVec 8

/-- A value of the position counters U and D: 40 bits, wrapping modulo 2^40 (R2). -/
abbrev Pos := BitVec 40

/-- A position in half-counts, that is twice a position: 41 bits, wrapping with the counters (R1). -/
abbrev HalfPos := BitVec 41

/-- The four-bit value of a code word (R15). -/
abbrev Nibble := BitVec 4

end Sys2Proof
end

