-- ==== Sys2Proof/Syntax.lean ====
section
/-! DEFINITION. The commands of the block: one constructor for each row of spec/opcode_table.json, in
the table's order. An event carries what the field wiring carries; an order carries its tag and the
fields of its body (R184). -/

namespace Sys2Proof

/-- The two encoders: the print encoder drives U, the wind encoder drives D (R2). -/
inductive Encoder where
  | print
  | wind
deriving DecidableEq, Repr

/-- The direction of one quadrature count (R2). -/
inductive Direction where
  | forward
  | backward
deriving DecidableEq, Repr

/-- The two scanners, each with its mark reader (R7). -/
inductive Scanner where
  | print
  | emboss
deriving DecidableEq, Repr

/-- A change of a scanner's level (R8). -/
inductive Edge where
  | darkGoing
  | lightGoing
deriving DecidableEq, Repr

/-- The commands that change the block's state. -/
inductive Instr where
  /-- COLD_RESET (R183): power-on or the reset input. -/
  | coldReset
  /-- ENCODER_COUNT (R2): one count of one encoder. -/
  | encoderCount (enc : Encoder) (dir : Direction)
  /-- SCANNER_EDGE (R8): one edge of one scanner. -/
  | scannerEdge (scanner : Scanner) (edge : Edge)
  /-- SPEED_MEASUREMENT (R4). -/
  | speedMeasurement
  /-- SPLICE_PULSE (R35). -/
  | splicePulse
  /-- DOFF_PULSE (R145). -/
  | doffPulse
  /-- TRIM_STEP (R84) of trim output T(n+1). -/
  | trimStep (output : Fin 8)
  /-- DRAW_PERIOD_END (R91). -/
  | drawPeriodEnd
  /-- NIP_TIMER_EXPIRY (R105). -/
  | nipTimerExpiry
  /-- KNIFE_TIMER_EXPIRY (R139). -/
  | knifeTimerExpiry
  /-- TURRET_TIMER_EXPIRY (R139). -/
  | turretTimerExpiry
  /-- HEAD_TIMEOUT_EXPIRY (R119). -/
  | headTimeoutExpiry
  /-- POLL_SENT (R119). -/
  | pollSent
  /-- HEAD_BYTE_RECEIVED (R115). -/
  | headByteReceived (b : Byte)
  /-- HEAD_ANSWER_GAP (R115). -/
  | headAnswerGap
  /-- LABELLER_BYTE_RECEIVED (R168). -/
  | labellerByteReceived (b : Byte)
  /-- LABEL_CR_TRANSMITTED (R167). -/
  | labelCrTransmitted
  /-- REPLY_TIMER_EXPIRY (R168). -/
  | replyTimerExpiry
  /-- HOST_BYTE_RECEIVED (R173). -/
  | hostByteReceived (b : Byte)
  /-- FRAME_GAP_TIMER_EXPIRY (R173). -/
  | frameGapTimerExpiry
  /-- FRAME_TRANSMITTED (R176). -/
  | frameTransmitted
  /-- STORE_PROGRAMMING_TIMER_EXPIRY (R181). -/
  | storeProgrammingTimerExpiry
  /-- IDENT (R182). -/
  | ident (tag : Byte)
  /-- STATUS (R182). -/
  | status (tag page : Byte)
  /-- RESTART (R182). -/
  | restart (tag : Byte)
  /-- JOB_LOAD (R177). -/
  | jobLoad (tag slot : Byte)
  /-- ARM (R177). -/
  | arm (tag : Byte)
  /-- JOB_END (R177). -/
  | jobEnd (tag : Byte)
  /-- JOB_ABORT (R177). -/
  | jobAbort (tag : Byte)
  /-- JOB_CLEAR (R177). -/
  | jobClear (tag : Byte)
  /-- JOB_SET (R179): a group number and the group's contents. -/
  | jobSet (tag group : Byte) (contents : List Byte)
  /-- JOB_READ (R179): a source (0 to 3 a slot, 4 ACTIVE) and a group number. -/
  | jobRead (tag source group : Byte)
  /-- JOB_STORE (R181). -/
  | jobStore (tag slot : Byte)
  /-- DEVICE_SET (R181). -/
  | deviceSet (tag rate startup : Byte)
  /-- CODE_SET (R20): an entry number and the entry's four bytes (R179). -/
  | codeSet (tag entry active kind design counter : Byte)
  /-- LOOP_SET (R75). -/
  | loopSet (tag loop action : Byte)
  /-- LOOP_READ (R76). -/
  | loopRead (tag loop : Byte)
  /-- TRIM_JOG (R88): an output number and a signed number of steps. -/
  | trimJog (tag output : Byte) (steps : BitVec 16)
  /-- ENGAGE (R107). -/
  | engage (tag : Byte)
  /-- LIFT (R106). -/
  | lift (tag : Byte)
  /-- REMARK (R53). -/
  | remark (tag : Byte) (index : BitVec 32) (value : Byte)
  /-- AMEND_WINDOW (R54). -/
  | amendWindow (tag : Byte) (first last : BitVec 32)
  /-- REPEAT_READ (R55). -/
  | repeatRead (tag selector : Byte) (index : BitVec 32)
  /-- ROLL_READ (R149). -/
  | rollRead (tag choice : Byte) (number : BitVec 32)
  /-- BATCH_READ (R161). -/
  | batchRead (tag choice : Byte) (number : BitVec 16)
  /-- BATCH_CLOSE (R160). -/
  | batchClose (tag : Byte) (number : BitVec 16)
  /-- LABEL_RESEND (R169). -/
  | labelResend (tag : Byte)
  /-- LABEL_SKIP (R169). -/
  | labelSkip (tag : Byte)
  /-- TIME_BASE_UNIT (R5). -/
  | timeBaseUnit
deriving DecidableEq, Repr

end Sys2Proof
end

