-- ==== Sys2Proof/Machine/Arith.lean ====
section
/-! DEFINITION. The conventions of R1: differences of positions, half-counts, rounding to nearest with
halves away from zero, counts that stop at 65,535, and little-endian fields. -/

namespace Sys2Proof.Machine

/-- The signed difference of two positions: modulo 2^40, read within ±2^39 (R1). A difference of exactly
2^39, which is both ends of that range, is read as −2^39 (log entry 37). -/
def posDiff (a b : Pos) : Int := (a - b).toInt

/-- The signed difference of two positions in half-counts; the one at both ends of its range is read as the
negative one (log entry 37). -/
def halfDiff (a b : HalfPos) : Int := (a - b).toInt

/-- A position in half-counts: twice the position. -/
def half (p : Pos) : HalfPos := BitVec.ofNat 41 (2 * p.toNat)

/-- A position moved on by a signed number of counts. -/
def posShift (p : Pos) (n : Int) : Pos := p + BitVec.ofInt 40 n

/-- A half-count position moved on by a signed number of half-counts. -/
def halfShift (p : HalfPos) (n : Int) : HalfPos := p + BitVec.ofInt 41 n

/-- A half-count position divided by two, rounded to nearest with halves away from zero (R1, R131). -/
def halfRound (p : HalfPos) : Pos := BitVec.ofNat 40 ((p.toNat + 1) / 2)

/-- The centre sum of an edge pair: leading edge plus trailing edge, in half-counts (R1, R8). The sum
is taken as twice the leading edge plus the width, so that a pair that straddles the counter's wrap
keeps its centre. -/
def centreSum (lead trail : Pos) : HalfPos := halfShift (half lead) (posDiff trail lead)

/-- A position is passed when the signed difference is positive (R1). -/
def passed (at_ target : Pos) : Bool := 0 < posDiff at_ target

/-- Twice a position passes a half-count position. -/
def passedHalf (at_ : Pos) (target : HalfPos) : Bool := 0 < halfDiff (half at_) target

/-- Twice a position reaches or passes a half-count position (R13). -/
def reachedHalf (at_ : Pos) (target : HalfPos) : Bool := 0 ≤ halfDiff (half at_) target

/-- Division rounded to nearest, halves away from zero (R1). A divisor of 0, which no rule of the
manual forms, gives 0. -/
def roundDiv (n d : Int) : Int :=
  let q : Nat := (2 * n.natAbs + d.natAbs) / (2 * d.natAbs)
  if (n < 0) ≠ (d < 0) then -(q : Int) else q

/-- The mean of a list, rounded to nearest with halves away from zero (R1); 0 for an empty list. -/
def mean (xs : List Int) : Int := roundDiv xs.sum xs.length

/-- Ceiling of a quotient of natural numbers (R134); 0 for a divisor of 0. -/
def ceilDiv (n d : Nat) : Nat := (n + d - 1) / d

/-- A value limited to a range. -/
def clampInt (lo hi x : Int) : Int := if x < lo then lo else if hi < x then hi else x

/-- The largest value of a count (R18 and the count rules of every chapter). -/
def countMax : Nat := 65535

/-- A count raised by `k`, which stays at 65,535 once there. The chapters of the blocks say so of their counts;
for the six link counts of R173 and R174, of which chapter 11 does not, log entry 38 does. -/
def bump (n : Nat) (k : Nat := 1) : Nat := min (n + k) countMax

/-- The integer square root by trying each bit from the highest down. -/
def isqrtBits : Nat → Nat → Nat → Nat
  | 0, _, r => r
  | k + 1, n, r =>
    let r' := r + 2 ^ k
    isqrtBits k n (if r' * r' ≤ n then r' else r)

/-- The largest whole number whose square does not exceed `n` (R153). -/
def isqrt (n : Nat) : Nat := isqrtBits (n.log2 / 2 + 1) n 0

/-- A field of `w` bytes, least-significant byte first (R1). -/
def le : Nat → Nat → List Byte
  | 0, _ => []
  | w + 1, n => BitVec.ofNat 8 n :: le w (n / 256)

/-- A signed field of `w` bytes in two's complement, least-significant byte first. -/
def leInt (w : Nat) (i : Int) : List Byte := le w (i % (256 ^ w : Nat)).toNat

/-- The number held by a little-endian field. -/
def fromLe : List Byte → Nat
  | [] => 0
  | b :: bs => b.toNat + 256 * fromLe bs

/-- The signed number held by a little-endian field in two's complement. -/
def fromLeInt (bs : List Byte) : Int :=
  let n := fromLe bs
  if 2 * n < 256 ^ bs.length then n else (n : Int) - (256 ^ bs.length : Nat)

/-- A Boolean as one byte: no and off 0, yes and on 1 (R178). -/
def boolByte (b : Bool) : Byte := if b then 1 else 0

/-- One step of the CRC of R172 over one bit: polynomial 0x1021, no reflection. -/
def crcBit (crc : BitVec 16) : BitVec 16 :=
  if crc.getLsbD 15 then (crc <<< 1) ^^^ 0x1021#16 else crc <<< 1

/-- The CRC taken on over one byte. -/
def crcByte (crc : BitVec 16) (b : Byte) : BitVec 16 :=
  let x := crc ^^^ ((b.zeroExtend 16) <<< 8)
  crcBit (crcBit (crcBit (crcBit (crcBit (crcBit (crcBit (crcBit x)))))))

/-- CRC-16 with initial value 0xFFFF and no final exclusive-or (R172). -/
def crc16 (bs : List Byte) : BitVec 16 := bs.foldl crcByte 0xFFFF#16

/-- The two check bytes of a frame, high byte first (R172). -/
def crcBytes (bs : List Byte) : List Byte :=
  let c := crc16 bs
  [(c >>> 8).truncate 8, c.truncate 8]

/-- The ASCII decimal digits of a number, least significant first, with fuel for its digits. -/
def decimalRev : Nat → Nat → List Byte
  | 0, _ => []
  | fuel + 1, n =>
    let d : Byte := BitVec.ofNat 8 (0x30 + n % 10)
    if n / 10 = 0 then [d] else d :: decimalRev fuel (n / 10)

/-- A number in ASCII decimal: no sign, no leading zeros, zero as the one character 0 (R166). -/
def decimal (n : Nat) : List Byte := (decimalRev (n.log2 + 1) n).reverse

end Sys2Proof.Machine
end

