-- ==== Sys2Proof/Machine/Settings.lean ====
section
/-! DEFINITION. The active job settings (R178): the settings table of every chapter with its default
after cold reset, its ranges, and the conditions that tie settings to one another. -/

namespace Sys2Proof.Machine

/-- A window of widths, both ends included (R9). -/
structure Window where
  lo : Nat
  hi : Nat
deriving DecidableEq, Repr

/-- The mark reader settings (R9). Places 0 to 6 of `nominal` and `capture` are stations 2 to 8. -/
structure ReaderSettings where
  key : Window
  station : Window
  fiducial : Window
  codeOffset : Nat
  pitch : Nat
  stations : Nat
  nominal : Vector Nat 7
  capture : Vector Nat 7
deriving DecidableEq, Repr

/-- The tracking settings (R22). -/
structure TrackSettings where
  nominalRepeat : Nat
  tolerance : Nat
  coastLimit : Nat
  splicerDistance : Nat
  transferDistance : Nat
deriving DecidableEq, Repr

/-- The settings of one loop (R60). `tolerance` is the register tolerance of L1 to L7 and the capture of
L8, which a loop group carries in the same place (R178). -/
structure LoopSettings where
  filterSet : Nat
  deadband : Nat
  gain : Nat
  maxstep : Nat
  settle : Nat
  coastLimit : Nat
  tolerance : Nat
deriving DecidableEq, Repr

/-- The form of a filter set (R61). -/
inductive FilterForm where
  | odd7
  | even8
deriving DecidableEq, Repr

/-- A filter set: a form and four coefficients in 512ths (R61). -/
structure FilterSet where
  form : FilterForm
  h0 : Int
  h1 : Int
  h2 : Int
  h3 : Int
deriving DecidableEq, Repr

/-- The settings of one trim output (R81). -/
structure TrimSettings where
  scale : Nat
  rate : Nat
  inverted : Bool
deriving DecidableEq, Repr

/-- The Emboss Controller's settings (R93). -/
structure EmbossSettings where
  scannerDistance : Nat
  nipDistance : Nat
  window : Nat
  nominal : Nat
  ratio : Nat
  lockIndex : Nat
  designStretch : Int
  tolerance : Nat
  abortLimit : Nat
  abortCount : Nat
  minSpeed : Nat
  liftLead : Nat
  trailing : Nat
  engageTime : Nat
  liftTime : Nat
  autoEngage : Bool
deriving DecidableEq, Repr

/-- The Shade Unit's own settings (R113). -/
structure ShadeSettings where
  headDistance : Nat
  patchOffset : Nat
  divisor : Nat
  timeout : Nat
  minHeads : Nat
  sideTolerance : Nat
deriving DecidableEq, Repr

/-- The settings of one shade head (R113). -/
structure HeadSettings where
  enabled : Bool
  gain : Nat
  offL : Int
  offA : Int
  offB : Int
deriving DecidableEq, Repr

/-- The Winder Controller's settings (R127). -/
structure WinderSettings where
  knifeDistance : Nat
  matchOffset : Nat
  targetLength : Nat
  knifeTime : Nat
  turretTime : Nat
  minRoll : Nat
  extraWaste : Nat
  maxOverlength : Nat
  firstRoll : Nat
  design : Nibble
deriving DecidableEq, Repr

/-- The Grading Unit's settings (R151). -/
structure GradeSettings where
  bSpread : Nat
  rejectSpread : Nat
  bLimit : Nat
  batchTolerance : Nat
  firstBatch : Nat
deriving DecidableEq, Repr

/-- The ten field codes of a label template, in the order of R166 (codes 1 to 10, R178). -/
inductive FieldCode where
  | roll
  | design
  | dnum
  | batch
  | grade
  | len
  | reps
  | match_
  | short
  | defects
deriving DecidableEq, Repr

/-- The label settings beside the templates (R165). -/
structure LabelSettings where
  normalTemplate : Nat
  rejectTemplate : Nat
  designName : Vector Byte 12
  replyTime : Nat
deriving DecidableEq, Repr

/-- What a code match entry makes of the groups it decides (R19). -/
inductive CodeAction where
  | plainRepeat
  | jobMark
  | ignore
deriving DecidableEq, Repr

/-- One field of a code match entry: a value and its care (R19). -/
structure CodeField where
  value : Nibble
  care : Bool
deriving DecidableEq, Repr

/-- One entry of the code match table (R19). -/
structure CodeEntry where
  active : Bool
  kind : CodeField
  design : CodeField
  counter : CodeField
  action : CodeAction
deriving DecidableEq, Repr

/-- Every active job setting (R178), and the contents of a job record (R180). Loops, trim outputs and
heads stand at their number less one. -/
structure JobSettings where
  countsPerMetre : Nat
  reader : ReaderSettings
  track : TrackSettings
  loops : Vector LoopSettings 8
  filters : Vector FilterSet 4
  trims : Vector TrimSettings 8
  emboss : EmbossSettings
  shade : ShadeSettings
  heads : Vector HeadSettings 4
  winder : WinderSettings
  grade : GradeSettings
  templates : Vector (List FieldCode) 4
  label : LabelSettings
  code : Vector CodeEntry 8
deriving DecidableEq, Repr

/-! ### The defaults after a cold reset -/

/-- R9. -/
def defaultReader : ReaderSettings :=
  { key := ⟨160, 480⟩, station := ⟨80, 240⟩, fiducial := ⟨40, 120⟩, codeOffset := 600, pitch := 40,
    stations := 2, nominal := #v[2400, 3600, 4800, 6000, 7200, 8400, 9600],
    capture := #v[200, 200, 200, 200, 200, 200, 200] }

/-- R22. -/
def defaultTrack : TrackSettings :=
  { nominalRepeat := 21200, tolerance := 3, coastLimit := 3, splicerDistance := 1000000,
    transferDistance := 1200000 }

/-- R60, for L1 to L7. -/
def defaultLoop : LoopSettings :=
  { filterSet := 0, deadband := 8, gain := 128, maxstep := 200, settle := 4, coastLimit := 3,
    tolerance := 40 }

/-- R60, for L8: the same, with its capture of 200 counts. -/
def defaultEmbossLoop : LoopSettings := { defaultLoop with tolerance := 200 }

/-- R61. -/
def defaultFilters : Vector FilterSet 4 :=
  #v[⟨.odd7, 32, 64, 96, 128⟩, ⟨.even8, 64, 64, 64, 64⟩, ⟨.odd7, 0, 0, 128, 256⟩,
     ⟨.even8, -16, 32, 96, 144⟩]

/-- R81. -/
def defaultTrim : TrimSettings := { scale := 128, rate := 2000, inverted := false }

/-- R93. -/
def defaultEmboss : EmbossSettings :=
  { scannerDistance := 400000, nipDistance := 320000, window := 2000, nominal := 800, ratio := 1,
    lockIndex := 0, designStretch := 0, tolerance := 40, abortLimit := 400, abortCount := 3,
    minSpeed := 250, liftLead := 20000, trailing := 20000, engageTime := 450, liftTime := 300,
    autoEngage := false }

/-- R113. -/
def defaultShade : ShadeSettings :=
  { headDistance := 160000, patchOffset := 10600, divisor := 1, timeout := 40, minHeads := 2,
    sideTolerance := 100 }

/-- R113. -/
def defaultHead : HeadSettings := { enabled := true, gain := 4096, offL := 0, offA := 0, offB := 0 }

/-- R127. -/
def defaultWinder : WinderSettings :=
  { knifeDistance := 120000, matchOffset := 0, targetLength := 400000, knifeTime := 125,
    turretTime := 15000, minRoll := 5, extraWaste := 1, maxOverlength := 3, firstRoll := 1,
    design := 0 }

/-- R151. -/
def defaultGrade : GradeSettings :=
  { bSpread := 80, rejectSpread := 200, bLimit := 2, batchTolerance := 60, firstBatch := 1 }

/-- R165. -/
def defaultTemplates : Vector (List FieldCode) 4 :=
  #v[[.roll, .design, .dnum, .batch, .grade, .len, .reps, .match_, .short, .defects],
     [.roll, .design, .grade, .len, .defects], [.roll], [.roll]]

/-- R165: twelve spaces. -/
def defaultLabel : LabelSettings :=
  { normalTemplate := 0, rejectTemplate := 1,
    designName := #v[0x20, 0x20, 0x20, 0x20, 0x20, 0x20, 0x20, 0x20, 0x20, 0x20, 0x20, 0x20],
    replyTime := 8000 }

/-- An inactive entry of the table of R19. -/
def idleCodeEntry : CodeEntry := ⟨false, ⟨0, false⟩, ⟨0, false⟩, ⟨0, false⟩, .plainRepeat⟩

/-- R19. -/
def defaultCode : Vector CodeEntry 8 :=
  #v[⟨true, ⟨0, true⟩, ⟨0, false⟩, ⟨0, false⟩, .plainRepeat⟩,
     ⟨true, ⟨2, true⟩, ⟨0, false⟩, ⟨0, false⟩, .jobMark⟩, idleCodeEntry, idleCodeEntry, idleCodeEntry,
     idleCodeEntry, idleCodeEntry, idleCodeEntry]

/-- Every active setting at its default (R183). -/
def defaultSettings : JobSettings :=
  { countsPerMetre := 40000, reader := defaultReader, track := defaultTrack,
    loops := #v[defaultLoop, defaultLoop, defaultLoop, defaultLoop, defaultLoop, defaultLoop, defaultLoop,
      defaultEmbossLoop],
    filters := defaultFilters,
    trims := #v[defaultTrim, defaultTrim, defaultTrim, defaultTrim, defaultTrim, defaultTrim, defaultTrim,
      defaultTrim],
    emboss := defaultEmboss, shade := defaultShade,
    heads := #v[defaultHead, defaultHead, defaultHead, defaultHead],
    winder := defaultWinder, grade := defaultGrade, templates := defaultTemplates, label := defaultLabel,
    code := defaultCode }

/-! ### Geometry derived from the settings -/

/-- The seven stations S2 to S8 by place. -/
def stationPlaces : List (Fin 7) := [0, 1, 2, 3, 4, 5, 6]

/-- The station at a place is within the job's station count N. -/
def ReaderSettings.hasStation (r : ReaderSettings) (i : Fin 7) : Bool := i.val + 2 ≤ r.stations

/-- The places of stations 2 to N. -/
def ReaderSettings.places (r : ReaderSettings) : List (Fin 7) := stationPlaces.filter r.hasStation

/-- Start of a station's capture range, in half-counts from the key's centre sum (R11). -/
def ReaderSettings.captureLo (r : ReaderSettings) (i : Fin 7) : Int :=
  2 * (r.nominal[i] : Int) - 2 * (r.capture[i] : Int)

/-- End of a station's capture range (R11). -/
def ReaderSettings.captureHi (r : ReaderSettings) (i : Fin 7) : Int :=
  2 * (r.nominal[i] : Int) + 2 * (r.capture[i] : Int)

/-- Start of the code area (R11). -/
def ReaderSettings.codeLo (r : ReaderSettings) : Int := 2 * (r.codeOffset : Int) - r.pitch

/-- End of the code area (R11). -/
def ReaderSettings.codeHi (r : ReaderSettings) : Int := 2 * (r.codeOffset : Int) + 47 * r.pitch

/-- The place of code cell `k` + 1, in half-counts from the key's centre sum (R13). -/
def ReaderSettings.cellAt (r : ReaderSettings) (k : Nat) : Int := 2 * (r.codeOffset : Int) + 2 * k * r.pitch

/-- The last cell position (R11). -/
def ReaderSettings.lastCell (r : ReaderSettings) : Int := r.cellAt 23

/-- The end of a station's window (R11). -/
def ReaderSettings.windowEnd (r : ReaderSettings) (i : Fin 7) : Int := r.captureHi i + r.station.hi

/-- The print group's end: the later of the last cell and the largest end of a station window (R11). -/
def ReaderSettings.groupEnd (r : ReaderSettings) : Int :=
  r.places.foldl (fun m i => max m (r.windowEnd i)) r.lastCell

/-- The code lag: how far behind its key's centre an emboss group completes, in counts (R93). -/
def ReaderSettings.codeLag (r : ReaderSettings) : Nat := r.codeOffset + 23 * r.pitch

/-! ### Ranges and conditions -/

/-- A natural number within a range. -/
def inRange (lo hi n : Nat) : Bool := lo ≤ n && n ≤ hi

/-- An integer within a range. -/
def inRangeInt (lo hi n : Int) : Bool := lo ≤ n && n ≤ hi

/-- A window of R9: both ends in range, the minimum not above the maximum. -/
def Window.valid (w : Window) : Bool := inRange 8 2000 w.lo && inRange 8 2000 w.hi && w.lo ≤ w.hi

/-- Two closed ranges that share no point; sharing an endpoint is overlapping (R11). -/
def apart (lo1 hi1 lo2 hi2 : Int) : Bool := hi1 < lo2 || hi2 < lo1

/-- The ranges of R9. -/
def ReaderSettings.inRanges (r : ReaderSettings) : Bool :=
  r.key.valid && r.station.valid && r.fiducial.valid && inRange 1 65535 r.codeOffset &&
  inRange 20 200 r.pitch && inRange 2 8 r.stations &&
  stationPlaces.all (fun i => inRange 0 65535 r.nominal[i]) &&
  stationPlaces.all (fun i => inRange 1 4095 r.capture[i])

/-- The first four conditions of R11. -/
def ReaderSettings.conditions (r : ReaderSettings) : Bool :=
  apart r.key.lo r.key.hi r.fiducial.lo r.fiducial.hi &&
  r.key.hi < 2 * r.codeOffset &&
  r.places.all (fun i => (r.key.hi : Int) + r.station.hi ≤ r.captureLo i) &&
  r.places.all (fun i => apart (r.captureLo i) (r.captureHi i) r.codeLo r.codeHi) &&
  r.places.all (fun i => r.places.all (fun j =>
    i == j || apart (r.captureLo i) (r.captureHi i) (r.captureLo j) (r.captureHi j)))

/-- The last condition of R11: the group ends before the earliest next key can arrive. Both sides are
multiplied by 200, so that nothing is rounded. -/
def groupFits (r : ReaderSettings) (t : TrackSettings) : Bool :=
  r.groupEnd * 100 < 2 * (t.nominalRepeat : Int) * (100 - t.tolerance)

/-- The ranges of R22. -/
def TrackSettings.inRanges (t : TrackSettings) : Bool :=
  inRange 1000 200000 t.nominalRepeat && inRange 1 10 t.tolerance && inRange 1 8 t.coastLimit &&
  inRange 0 8000000 t.splicerDistance && inRange 1000 8000000 t.transferDistance

/-- The ranges of R60; the last differs between L1 to L7 and L8. -/
def LoopSettings.inRanges (l : LoopSettings) (maxTolerance : Nat) : Bool :=
  inRange 0 3 l.filterSet && inRange 0 255 l.deadband && inRange 0 256 l.gain &&
  inRange 1 1023 l.maxstep && inRange 1 63 l.settle && inRange 1 15 l.coastLimit &&
  inRange 1 maxTolerance l.tolerance

/-- The largest register tolerance of L1 to L7 and the largest capture of L8 (R60). -/
def maxLoopTolerance (i : Fin 8) : Nat := if i = 7 then 4095 else 2047

/-- The ranges of R61. -/
def FilterSet.inRanges (f : FilterSet) : Bool :=
  inRangeInt (-512) 511 f.h0 && inRangeInt (-512) 511 f.h1 && inRangeInt (-512) 511 f.h2 &&
  inRangeInt (-512) 511 f.h3

/-- The ranges of R81. -/
def TrimSettings.inRanges (t : TrimSettings) : Bool := inRange 1 4095 t.scale && inRange 100 20000 t.rate

/-- The ranges and the two conditions of R93. -/
def EmbossSettings.inRanges (e : EmbossSettings) : Bool :=
  inRange 1000 8000000 e.scannerDistance && inRange 1 8000000 e.nipDistance &&
  e.nipDistance < e.scannerDistance && inRange 50 20000 e.window && inRange 0 65535 e.nominal &&
  (e.ratio == 1 || e.ratio == 2 || e.ratio == 4) && e.lockIndex < e.ratio &&
  inRangeInt (-20000) 20000 e.designStretch && inRange 1 2047 e.tolerance &&
  inRange 1 4095 e.abortLimit && inRange 1 15 e.abortCount && inRange 0 4000 e.minSpeed &&
  inRange 1 1000000 e.liftLead && inRange 0 1000000 e.trailing && inRange 1 65535 e.engageTime &&
  inRange 1 65535 e.liftTime

/-- The ranges of R113 for the unit. -/
def ShadeSettings.inRanges (h : ShadeSettings) : Bool :=
  inRange 1 8000000 h.headDistance && inRange 0 65535 h.patchOffset &&
  (h.divisor == 1 || h.divisor == 2 || h.divisor == 4 || h.divisor == 8) && inRange 10 200 h.timeout &&
  inRange 1 4 h.minHeads && inRange 0 10000 h.sideTolerance

/-- The ranges of R113 for a head. -/
def HeadSettings.inRanges (h : HeadSettings) : Bool :=
  inRange 3072 5120 h.gain && inRangeInt (-2000) 2000 h.offL && inRangeInt (-2000) 2000 h.offA &&
  inRangeInt (-2000) 2000 h.offB

/-- The ranges of R127. -/
def WinderSettings.inRanges (w : WinderSettings) : Bool :=
  inRange 1000 8000000 w.knifeDistance && inRange 0 65535 w.matchOffset &&
  inRange 4000 40000000 w.targetLength && inRange 1 65535 w.knifeTime && inRange 1 65535 w.turretTime &&
  inRange 1 40 w.minRoll && inRange 0 4 w.extraWaste && inRange 0 20 w.maxOverlength &&
  inRange 1 4294967295 w.firstRoll

/-- The ranges of R151. -/
def GradeSettings.inRanges (g : GradeSettings) : Bool :=
  inRange 0 10000 g.bSpread && inRange 0 10000 g.rejectSpread && inRange 0 20 g.bLimit &&
  inRange 0 10000 g.batchTolerance && inRange 1 65535 g.firstBatch

/-- A template holds 1 to 10 field codes (R165). -/
def templateInRange (t : List FieldCode) : Bool := inRange 1 10 t.length

/-- A character of the design name: 0x20 to 0x7E except the semicolon (R165). -/
def nameByteInRange (b : Byte) : Bool := inRange 0x20 0x7E b.toNat && b != 0x3B

/-- The ranges of R165 beside the templates. -/
def LabelSettings.inRanges (l : LabelSettings) : Bool :=
  inRange 0 3 l.normalTemplate && inRange 0 3 l.rejectTemplate &&
  l.designName.toList.all nameByteInRange && inRange 1000 50000 l.replyTime

/-- The condition of R127 on K: a record is DOWNSTREAM before it reaches the knife. -/
def knifeClear (w : WinderSettings) (e : EmbossSettings) (r : ReaderSettings) : Bool :=
  2 * e.window + r.codeLag < w.knifeDistance

/-- The eight loops, or trim outputs, by place. -/
def places8 : List (Fin 8) := [0, 1, 2, 3, 4, 5, 6, 7]

/-- The four filter sets, heads or templates by place. -/
def places4 : List (Fin 4) := [0, 1, 2, 3]

/-- Every setting in its range (R9, R22, R60, R61, R81, R93, R113, R127, R151, R165, R178). -/
def JobSettings.inRanges (j : JobSettings) : Bool :=
  inRange 10000 80000 j.countsPerMetre && j.reader.inRanges && j.track.inRanges &&
  places8.all (fun i => j.loops[i].inRanges (maxLoopTolerance i)) &&
  places4.all (fun i => j.filters[i].inRanges) && places8.all (fun i => j.trims[i].inRanges) &&
  j.emboss.inRanges && j.shade.inRanges && places4.all (fun i => j.heads[i].inRanges) &&
  j.winder.inRanges && j.grade.inRanges && places4.all (fun i => templateInRange j.templates[i]) &&
  j.label.inRanges

/-- Every condition between settings: R11, R93 (within its ranges), R113 on H, R127 on K and on the
match offset. -/
def JobSettings.conditions (j : JobSettings) : Bool :=
  j.reader.conditions && groupFits j.reader j.track && j.shade.headDistance < j.emboss.nipDistance &&
  knifeClear j.winder j.emboss j.reader && j.winder.matchOffset < j.track.nominalRepeat

/-- Settings that no order refuses VALUE. -/
def JobSettings.valid (j : JobSettings) : Bool := j.inRanges && j.conditions

/-! ### What the job states refuse -/

/-- The settings of the emboss group marked geometry in R93. -/
def EmbossSettings.geometry (e : EmbossSettings) : List Nat :=
  [e.scannerDistance, e.nipDistance, e.nominal, e.ratio, e.lockIndex, e.liftLead]

/-- Two sets of settings with the same geometry and the same settings of the other kinds that their
chapters refuse to change while the job is ARMED or DRAINING: counts per metre (R178), the mark
reader settings (R9, R11, R59), the nominal repeat and the two distances of R22, the filter sets
(R61), the direction polarities (R81), and the geometry of R93, R113 and R127. -/
def sameGeometry (a b : JobSettings) : Bool :=
  a.countsPerMetre == b.countsPerMetre && a.reader == b.reader &&
  a.track.nominalRepeat == b.track.nominalRepeat &&
  a.track.splicerDistance == b.track.splicerDistance &&
  a.track.transferDistance == b.track.transferDistance && a.filters == b.filters &&
  places8.all (fun i => a.trims[i].inverted == b.trims[i].inverted) &&
  a.emboss.geometry == b.emboss.geometry && a.shade.headDistance == b.shade.headDistance &&
  a.shade.patchOffset == b.shade.patchOffset && a.shade.divisor == b.shade.divisor &&
  a.winder.knifeDistance == b.winder.knifeDistance && a.winder.matchOffset == b.winder.matchOffset

end Sys2Proof.Machine
end

