-- ==== Sys2Proof/Machine/Operands.lean ====
section
/-! DEFINITION. The operand forms of the setting orders: the setting groups of JOB SET and JOB READ as
bytes and back (R178, R179, R184). A byte list is read by field, at an offset and with a width. -/

namespace Sys2Proof.Machine

/-- An unsigned field: `w` bytes from byte `i`, least-significant byte first. -/
def nat (bs : List Byte) (i w : Nat) : Nat := fromLe ((bs.drop i).take w)

/-- A signed field. -/
def int (bs : List Byte) (i w : Nat) : Int := fromLeInt ((bs.drop i).take w)

/-- A byte as no or yes: any other code is refused (R178, R184). -/
def yesNo (b : Byte) : Option Bool := if b = 0 then some false else if b = 1 then some true else none

/-- The byte at an offset. -/
def byteAt (bs : List Byte) (i : Nat) : Byte := bs.getD i 0

/-! ### The groups (R178) -/

/-- The setting groups in the order of their numbers; `code` is group 36 of JOB READ. -/
inductive Group where
  | scale
  | reader
  | track
  | loop (i : Fin 8)
  | filter (i : Fin 4)
  | trim (i : Fin 8)
  | emboss
  | shade
  | head (i : Fin 4)
  | winder
  | grade
  | template (i : Fin 4)
  | label
  | code
deriving DecidableEq, Repr

/-- The group of a number (R178, R179). -/
def groupOf (n : Nat) : Option Group :=
  if n = 0 then some .scale
  else if n = 1 then some .reader
  else if n = 2 then some .track
  else if h : 3 ≤ n ∧ n < 11 then some (.loop ⟨n - 3, by omega⟩)
  else if h : 11 ≤ n ∧ n < 15 then some (.filter ⟨n - 11, by omega⟩)
  else if h : 15 ≤ n ∧ n < 23 then some (.trim ⟨n - 15, by omega⟩)
  else if n = 23 then some .emboss
  else if n = 24 then some .shade
  else if h : 25 ≤ n ∧ n < 29 then some (.head ⟨n - 25, by omega⟩)
  else if n = 29 then some .winder
  else if n = 30 then some .grade
  else if h : 31 ≤ n ∧ n < 35 then some (.template ⟨n - 31, by omega⟩)
  else if n = 35 then some .label
  else if n = 36 then some .code
  else none

/-- The number of a group. -/
def Group.number : Group → Nat
  | .scale => 0
  | .reader => 1
  | .track => 2
  | .loop i => 3 + i
  | .filter i => 11 + i
  | .trim i => 15 + i
  | .emboss => 23
  | .shade => 24
  | .head i => 25 + i
  | .winder => 29
  | .grade => 30
  | .template i => 31 + i
  | .label => 35
  | .code => 36

/-- The size of a group's contents in bytes. -/
def Group.size : Group → Nat
  | .scale => 3
  | .reader => 44
  | .track => 11
  | .loop _ => 10
  | .filter _ => 9
  | .trim _ => 5
  | .emboss => 32
  | .shade => 10
  | .head _ => 9
  | .winder => 21
  | .grade => 9
  | .template _ => 10
  | .label => 16
  | .code => 32

/-! ### Contents as bytes -/

/-- R9's table. -/
def readerBytes (r : ReaderSettings) : List Byte :=
  le 2 r.key.lo ++ le 2 r.key.hi ++ le 2 r.station.lo ++ le 2 r.station.hi ++ le 2 r.fiducial.lo ++
    le 2 r.fiducial.hi ++ le 2 r.codeOffset ++ le 1 r.pitch ++ le 1 r.stations ++
    stationPlaces.flatMap (fun i => le 2 r.nominal[i]) ++ stationPlaces.flatMap (fun i => le 2 r.capture[i])

/-- R22's table. -/
def trackBytes (t : TrackSettings) : List Byte :=
  le 3 t.nominalRepeat ++ le 1 t.tolerance ++ le 1 t.coastLimit ++ le 3 t.splicerDistance ++
    le 3 t.transferDistance

/-- R60's table. -/
def loopBytes (l : LoopSettings) : List Byte :=
  le 1 l.filterSet ++ le 1 l.deadband ++ le 2 l.gain ++ le 2 l.maxstep ++ le 1 l.settle ++
    le 1 l.coastLimit ++ le 2 l.tolerance

/-- The code of a form. -/
def formCode : FilterForm → Byte
  | .odd7 => 0
  | .even8 => 1

/-- R61's table. -/
def filterBytes (f : FilterSet) : List Byte :=
  formCode f.form :: leInt 2 f.h0 ++ leInt 2 f.h1 ++ leInt 2 f.h2 ++ leInt 2 f.h3

/-- R81's table. -/
def trimBytes (t : TrimSettings) : List Byte := le 2 t.scale ++ le 2 t.rate ++ [boolByte t.inverted]

/-- R93's table. -/
def embossBytes (e : EmbossSettings) : List Byte :=
  le 3 e.scannerDistance ++ le 3 e.nipDistance ++ le 2 e.window ++ le 2 e.nominal ++ le 1 e.ratio ++
    le 1 e.lockIndex ++ leInt 2 e.designStretch ++ le 2 e.tolerance ++ le 2 e.abortLimit ++
    le 1 e.abortCount ++ le 2 e.minSpeed ++ le 3 e.liftLead ++ le 3 e.trailing ++ le 2 e.engageTime ++
    le 2 e.liftTime ++ [boolByte e.autoEngage]

/-- R113's table, the unit's part. -/
def shadeBytes (h : ShadeSettings) : List Byte :=
  le 3 h.headDistance ++ le 2 h.patchOffset ++ le 1 h.divisor ++ le 1 h.timeout ++ le 1 h.minHeads ++
    le 2 h.sideTolerance

/-- R113's table, a head's part. -/
def headBytes (h : HeadSettings) : List Byte :=
  boolByte h.enabled :: le 2 h.gain ++ leInt 2 h.offL ++ leInt 2 h.offA ++ leInt 2 h.offB

/-- R127's table. -/
def winderBytes (w : WinderSettings) : List Byte :=
  le 3 w.knifeDistance ++ le 2 w.matchOffset ++ le 4 w.targetLength ++ le 2 w.knifeTime ++
    le 2 w.turretTime ++ le 1 w.minRoll ++ le 1 w.extraWaste ++ le 1 w.maxOverlength ++ le 4 w.firstRoll ++
    le 1 w.design.toNat

/-- R151's table. -/
def gradeBytes (g : GradeSettings) : List Byte :=
  le 2 g.bSpread ++ le 2 g.rejectSpread ++ le 1 g.bLimit ++ le 2 g.batchTolerance ++ le 2 g.firstBatch

/-- The code of a template field (R178). -/
def fieldByte : FieldCode → Byte
  | .roll => 1
  | .design => 2
  | .dnum => 3
  | .batch => 4
  | .grade => 5
  | .len => 6
  | .reps => 7
  | .match_ => 8
  | .short => 9
  | .defects => 10

/-- A template: its codes, and 0 in every byte after the last (R178). -/
def templateBytes (t : List FieldCode) : List Byte := t.map fieldByte ++ List.replicate (10 - t.length) 0

/-- R165's table beside the templates. -/
def labelBytes (l : LabelSettings) : List Byte :=
  le 1 l.normalTemplate ++ le 1 l.rejectTemplate ++ l.designName.toList ++ le 2 l.replyTime

/-- A field of a code match entry: the value in the low nibble, the care in bit 4 (R179). -/
def codeFieldByte (f : CodeField) : Byte := f.value.zeroExtend 8 ||| (if f.care then 0x10#8 else 0#8)

/-- The action in bits 5 and 6 (R179). -/
def actionBits : CodeAction → Byte
  | .plainRepeat => 0x00
  | .jobMark => 0x20
  | .ignore => 0x40

/-- One entry of group 36 (R179). -/
def codeEntryBytes (e : CodeEntry) : List Byte :=
  [boolByte e.active, codeFieldByte e.kind, codeFieldByte e.design,
   codeFieldByte e.counter ||| actionBits e.action]

/-- The contents of a group (R178, R179). -/
def groupBytes (j : JobSettings) : Group → List Byte
  | .scale => le 3 j.countsPerMetre
  | .reader => readerBytes j.reader
  | .track => trackBytes j.track
  | .loop i => loopBytes j.loops[i]
  | .filter i => filterBytes j.filters[i]
  | .trim i => trimBytes j.trims[i]
  | .emboss => embossBytes j.emboss
  | .shade => shadeBytes j.shade
  | .head i => headBytes j.heads[i]
  | .winder => winderBytes j.winder
  | .grade => gradeBytes j.grade
  | .template i => templateBytes j.templates[i]
  | .label => labelBytes j.label
  | .code => places8.flatMap fun i => codeEntryBytes j.code[i]

/-! ### Contents read back -/

/-- Seven values of two bytes from an offset. -/
def stationValues (bs : List Byte) (i : Nat) : Vector Nat 7 :=
  #v[nat bs i 2, nat bs (i + 2) 2, nat bs (i + 4) 2, nat bs (i + 6) 2, nat bs (i + 8) 2, nat bs (i + 10) 2,
     nat bs (i + 12) 2]

/-- The mark reader group. -/
def readReader (bs : List Byte) : ReaderSettings :=
  { key := ⟨nat bs 0 2, nat bs 2 2⟩, station := ⟨nat bs 4 2, nat bs 6 2⟩, fiducial := ⟨nat bs 8 2, nat bs 10 2⟩,
    codeOffset := nat bs 12 2, pitch := nat bs 14 1, stations := nat bs 15 1,
    nominal := stationValues bs 16, capture := stationValues bs 30 }

/-- The tracking group. -/
def readTrack (bs : List Byte) : TrackSettings :=
  { nominalRepeat := nat bs 0 3, tolerance := nat bs 3 1, coastLimit := nat bs 4 1,
    splicerDistance := nat bs 5 3, transferDistance := nat bs 8 3 }

/-- A loop group. -/
def readLoop (bs : List Byte) : LoopSettings :=
  { filterSet := nat bs 0 1, deadband := nat bs 1 1, gain := nat bs 2 2, maxstep := nat bs 4 2,
    settle := nat bs 6 1, coastLimit := nat bs 7 1, tolerance := nat bs 8 2 }

/-- A filter set group; a form code beyond 1 is refused. -/
def readFilter (bs : List Byte) : Option FilterSet :=
  (yesNo (byteAt bs 0)).map fun even =>
    { form := if even then .even8 else .odd7, h0 := int bs 1 2, h1 := int bs 3 2, h2 := int bs 5 2,
      h3 := int bs 7 2 }

/-- A trim output group. -/
def readTrim (bs : List Byte) : Option TrimSettings :=
  (yesNo (byteAt bs 4)).map fun inverted => { scale := nat bs 0 2, rate := nat bs 2 2, inverted }

/-- The emboss group. -/
def readEmboss (bs : List Byte) : Option EmbossSettings :=
  (yesNo (byteAt bs 31)).map fun autoEngage =>
    { scannerDistance := nat bs 0 3, nipDistance := nat bs 3 3, window := nat bs 6 2, nominal := nat bs 8 2,
      ratio := nat bs 10 1, lockIndex := nat bs 11 1, designStretch := int bs 12 2, tolerance := nat bs 14 2,
      abortLimit := nat bs 16 2, abortCount := nat bs 18 1, minSpeed := nat bs 19 2, liftLead := nat bs 21 3,
      trailing := nat bs 24 3, engageTime := nat bs 27 2, liftTime := nat bs 29 2, autoEngage }

/-- The shade unit group. -/
def readShade (bs : List Byte) : ShadeSettings :=
  { headDistance := nat bs 0 3, patchOffset := nat bs 3 2, divisor := nat bs 5 1, timeout := nat bs 6 1,
    minHeads := nat bs 7 1, sideTolerance := nat bs 8 2 }

/-- A shade head group. -/
def readHead (bs : List Byte) : Option HeadSettings :=
  (yesNo (byteAt bs 0)).map fun enabled =>
    { enabled, gain := nat bs 1 2, offL := int bs 3 2, offA := int bs 5 2, offB := int bs 7 2 }

/-- The winder group; a design number beyond 15 is refused. -/
def readWinder (bs : List Byte) : Option WinderSettings :=
  if nat bs 20 1 ≤ 15 then
    some { knifeDistance := nat bs 0 3, matchOffset := nat bs 3 2, targetLength := nat bs 5 4,
           knifeTime := nat bs 9 2, turretTime := nat bs 11 2, minRoll := nat bs 13 1,
           extraWaste := nat bs 14 1, maxOverlength := nat bs 15 1, firstRoll := nat bs 16 4,
           design := BitVec.ofNat 4 (nat bs 20 1) }
  else none

/-- The grading group. -/
def readGrade (bs : List Byte) : GradeSettings :=
  { bSpread := nat bs 0 2, rejectSpread := nat bs 2 2, bLimit := nat bs 4 1, batchTolerance := nat bs 5 2,
    firstBatch := nat bs 7 2 }

/-- The field a code names (R178). -/
def fieldOf (b : Byte) : Option FieldCode :=
  match b.toNat with
  | 1 => some .roll
  | 2 => some .design
  | 3 => some .dnum
  | 4 => some .batch
  | 5 => some .grade
  | 6 => some .len
  | 7 => some .reps
  | 8 => some .match_
  | 9 => some .short
  | 10 => some .defects
  | _ => none

/-- A template's bytes: codes up to the first 0, and nothing but 0 after it (R178). -/
def readTemplate : List Byte → Option (List FieldCode)
  | [] => some []
  | b :: bs =>
    if b = 0 then if bs.all (· == 0) then some [] else none
    else match fieldOf b, readTemplate bs with
      | some f, some fs => some (f :: fs)
      | _, _ => none

/-- Twelve bytes from an offset. -/
def nameBytes (bs : List Byte) (i : Nat) : Vector Byte 12 :=
  #v[byteAt bs i, byteAt bs (i + 1), byteAt bs (i + 2), byteAt bs (i + 3), byteAt bs (i + 4), byteAt bs (i + 5),
     byteAt bs (i + 6), byteAt bs (i + 7), byteAt bs (i + 8), byteAt bs (i + 9), byteAt bs (i + 10),
     byteAt bs (i + 11)]

/-- The label group. -/
def readLabel (bs : List Byte) : LabelSettings :=
  { normalTemplate := nat bs 0 1, rejectTemplate := nat bs 1 1, designName := nameBytes bs 2,
    replyTime := nat bs 14 2 }

/-- A value with its care; a bit above bit 4 is refused (R20, R179). -/
def readCodeField (b : Byte) : Option CodeField :=
  if b.toNat < 32 then some ⟨b.truncate 4, b.getLsbD 4⟩ else none

/-- The action in bits 5 and 6, with bit 7 clear (R20, R179). -/
def readAction (b : Byte) : Option CodeAction :=
  match b.toNat / 32 with
  | 0 => some .plainRepeat
  | 1 => some .jobMark
  | 2 => some .ignore
  | _ => none

/-- The four bytes of a code match entry (R20, R179). -/
def readCodeEntry (active kind design counter : Byte) : Option CodeEntry :=
  match yesNo active, readCodeField kind, readCodeField design, readAction counter with
  | some a, some k, some d, some act =>
    some { active := a, kind := k, design := d, counter := ⟨counter.truncate 4, counter.getLsbD 4⟩, action := act }
  | _, _, _, _ => none

/-- The settings with a group replaced by contents of its size, when every code in them is one that its
field lists (R179). The code match table is not written by JOB SET. -/
def setGroup (j : JobSettings) (bs : List Byte) : Group → Option JobSettings
  | .scale => some { j with countsPerMetre := nat bs 0 3 }
  | .reader => some { j with reader := readReader bs }
  | .track => some { j with track := readTrack bs }
  | .loop i => some { j with loops := j.loops.set i (readLoop bs) }
  | .filter i => (readFilter bs).map fun x => { j with filters := j.filters.set i x }
  | .trim i => (readTrim bs).map fun x => { j with trims := j.trims.set i x }
  | .emboss => (readEmboss bs).map fun x => { j with emboss := x }
  | .shade => some { j with shade := readShade bs }
  | .head i => (readHead bs).map fun x => { j with heads := j.heads.set i x }
  | .winder => (readWinder bs).map fun x => { j with winder := x }
  | .grade => some { j with grade := readGrade bs }
  | .template i => (readTemplate bs).map fun x => { j with templates := j.templates.set i x }
  | .label => some { j with label := readLabel bs }
  | .code => none

end Sys2Proof.Machine
end

