-- ==== Sys2Proof/Config.lean ====
section
/-! DEFINITION. The values the spec leaves open, as constants without a body: a statement that holds in
this model holds for every value they may have. Each is applied to the model's counter of free
values (State.free), which advances by one at each use. -/

namespace Sys2Proof.Config

/-- The cause byte of a LOOP notice that an order raises by taking a loop out of COAST: R69 asks for
the notice and lists the causes MISSES, LOST and SAMPLE, none of which is this one (log entry 2). -/
opaque freeCause : Nat → Byte

/-- The repeat index of that same notice: R69 carries the index of the record that caused the change,
and no record caused this one (log entry 2). -/
opaque freeIndex : Nat → BitVec 32

end Sys2Proof.Config
end

