-- ==== Sys2Proof/Machine/State.lean ====
section
/-! DEFINITION. The state of the Hemtara 4816, block by block as the manual's chapters list it, and
State.reset, the state after a cold reset with a blank job store. Everything is plain data. -/

namespace Sys2Proof.Machine

/-! ### Timers (R6) -/

/-- A timer (R6): its reload, its current value in units of 0.1 ms, whether it runs, and whether it has run
out and its expiry has not yet been taken by the owning block. -/
structure Timer where
  reload : Nat
  current : Nat
  running : Bool
  due : Bool
deriving DecidableEq, Repr

/-- An idle timer. -/
def Timer.idle (reload : Nat) : Timer := { reload, current := 0, running := false, due := false }

/-! ### Encoder and Position Unit (R2 to R5) -/

/-- One position counter with its high-water mark, fresh state and speed (R2, R3, R4). -/
structure Counter where
  pos : Pos
  highWater : Pos
  fresh : Bool
  speed : Int
  measuredAt : Pos
deriving DecidableEq, Repr

/-- The EPU. `intervalUnits` counts the units since a speed measurement last fell due, and `measureDue` is
set from then until the next measurement is taken (R4, R5). -/
structure Epu where
  u : Counter
  d : Counter
  timeBase : BitVec 32
  intervalUnits : Nat
  measureDue : Bool
deriving DecidableEq, Repr

/-! ### Mark Readers (R7 to R18) -/

/-- The five counts of a reader (R18). -/
structure ReaderCounts where
  strays : Nat
  unclaimed : Nat
  droppedEdges : Nat
  corrected : Nat
  uncorrectable : Nat
deriving DecidableEq, Repr

/-- A reader: the scanner's level, the level the reader takes as present (true is dark), the leading
edge held, and the counts (R8, R18). -/
structure Reader where
  scannerDark : Bool
  level : Bool
  lead : Option Pos
  counts : ReaderCounts
deriving DecidableEq, Repr

/-- A mark: the positions of its leading and trailing edges. -/
structure Mark where
  lead : Pos
  trail : Pos
deriving DecidableEq, Repr

/-- An open print group: its key, the station marks by place, and the cells sampled so far (R10 to R13). -/
structure PrintGroup where
  key : Mark
  marks : Vector (Option Mark) 7
  cells : List Bool
deriving DecidableEq, Repr

/-- An open emboss group (R16). -/
structure EmbossGroup where
  key : Mark
  cells : List Bool
deriving DecidableEq, Repr

/-- The MRD. `held` are the fiducials held while an emboss group is open (R17). -/
structure Mrd where
  print : Reader
  emboss : Reader
  group : Option PrintGroup
  embossGroup : Option EmbossGroup
  held : List Mark
deriving DecidableEq, Repr

/-- The decode status of a code word (R15). -/
inductive WordStatus where
  | clean
  | corrected
  | uncorrectable
deriving DecidableEq, Repr

/-- A decoded code word: its status and its value, absent when UNCORRECTABLE (R15). -/
structure CodeWord where
  status : WordStatus
  value : Option Nibble
deriving DecidableEq, Repr

/-! ### Repeat Tracker (R19 to R39) -/

/-- The tracking states. -/
inductive Tracking where
  | idle
  | search
  | locked
  | coasting
  | lost
deriving DecidableEq, Repr

/-- The code status of a repeat record (R41). -/
inductive CodeStatus where
  | clean
  | corrected
  | uncorrectable
  | none
deriving DecidableEq, Repr

/-- What a print group is, by the code match table (R21). -/
inductive Outcome21 where
  | plainRepeat
  | jobMark
  | unmatched
  | ignore
deriving DecidableEq, Repr

/-- What the tracker takes from a print group (R21), with its station marks. -/
structure KeyGroup where
  outcome : Outcome21
  centre : HalfPos
  key : Mark
  counter : Option Nibble
  design : Option Nibble
  status : CodeStatus
  counterCare : Bool
  marks : Vector (Option Mark) 7
deriving DecidableEq, Repr

/-- The last key (R23). -/
structure LastKey where
  index : Nat
  centre : HalfPos
  counter : Option Nibble
  seen : Bool
deriving DecidableEq, Repr

/-- The window in LOCKED and COASTING (R23). -/
structure KeyWindow where
  expected : HalfPos
  halfWidth : Int
  claimed : Bool
deriving DecidableEq, Repr

/-- The phase of a splice queue entry (R35). -/
inductive SplicePhase where
  | waiting
  | watch
deriving DecidableEq, Repr

/-- A splice queue entry (R35). -/
structure Splice where
  pos : Pos
  phase : SplicePhase
  stamp : Option Nat
deriving DecidableEq, Repr

/-- The tracker's counts (R39). -/
structure RtkCounts where
  ignored : Nat
  doubleReads : Nat
  searchDiscards : Nat
  predicted : Nat
  missed : Nat
  unrecorded : Nat
  lostSplices : Nat
  unstamped : Nat
deriving DecidableEq, Repr

/-- The RTK (R23, R35, R39). The L_ref history and the run are kept oldest first. -/
structure Rtk where
  state : Tracking
  nextIndex : Nat
  last : Option LastKey
  history : List Int
  run : List KeyGroup
  window : Option KeyWindow
  predictedRun : Nat
  gapPending : Bool
  storeFull : Bool
  splices : List Splice
  counts : RtkCounts
deriving DecidableEq, Repr

/-! ### Repeat Store (R40 to R58) -/

/-- The stages of a record, in order (R42). -/
inductive Stage where
  | created
  | transferred
  | downstream
  | assigned
  | closed
deriving DecidableEq, Repr

/-- The REG group (R64): the raw error of each station by place, the correction mask and REG_OUT. -/
structure Reg where
  errors : Vector (Option Int) 7
  mask : Vector Bool 7
  out : Bool
deriving DecidableEq, Repr

/-- The seen mode of an EMB group with its key_D (R41, R111). -/
structure SeenAt where
  seen : Bool
  keyD : HalfPos
deriving DecidableEq, Repr

/-- The EMB group (R41). The nip state is true for ENGAGED and false for NOT. -/
structure Emb where
  seenAt : Option SeenAt
  lD : Option Int
  stretch : Option Int
  nip : Option Bool
  phase : Option Int
  wrongRepeat : Bool
  out : Bool
deriving DecidableEq, Repr

/-- The SHD group (R41). -/
structure Shd where
  l : Int
  a : Int
  b : Int
  heads : Nat
  spread : Int
  side : Bool
  clamped : Bool
deriving DecidableEq, Repr

/-- Where the WND group puts a record: into a roll, or to waste (R132). -/
inductive WoundTo where
  | roll (slot : Fin 12) (number position : Nat)
  | waste
deriving DecidableEq, Repr

/-- The WND group (R41). -/
structure Wnd where
  dest : WoundTo
  cutStart : Pos
deriving DecidableEq, Repr

/-- A repeat record (R41). SPLICE is carried by the presence of the splice offset. -/
structure Record where
  index : Nat
  predicted : Bool
  missed : Bool
  gapBefore : Bool
  unmatched : Bool
  jobMark : Bool
  splice : Option Int
  keyU : HalfPos
  counter : Option Nibble
  design : Option Nibble
  status : CodeStatus
  lU : Option Int
  keyT : Option Pos
  stage : Stage
  reg : Option Reg
  emb : Option Emb
  shd : Option Shd
  wnd : Option Wnd
  remark : Nat
deriving DecidableEq, Repr

/-- The parts of a record that a write may name (R48). -/
inductive Part where
  | header
  | reg
  | emb
  | shd
  | wnd
deriving DecidableEq, Repr

/-- The late-write counts (R57). -/
structure LateCounts where
  header : Nat
  reg : Nat
  emb : Nat
  shd : Nat
  wnd : Nat
deriving DecidableEq, Repr

/-- The RST: the records oldest first, the counts of R57 and the amend window, absent when empty (R54). -/
structure Rst where
  records : List Record
  peak : Nat
  late : LateCounts
  orphans : Nat
  amend : Option (Nat × Nat)
deriving DecidableEq, Repr

/-! ### Register Loop Unit (R59 to R79) -/

/-- The loop states. -/
inductive LoopState where
  | off
  | fill
  | track
  | settle
  | coast
  | hold
deriving DecidableEq, Repr

/-- A loop's last output (R62). The correction is absent when the computation ended at the deadband. -/
structure LastOutput where
  f : Int
  c : Option Int
  fclamp : Bool
  deadband : Bool
  zero : Bool
  limited : Bool
deriving DecidableEq, Repr

/-- The counts of a loop (R79). -/
structure LoopCounts where
  good : Nat
  misses : Nat
  clamps : Nat
  corrections : Nat
  limited : Nat
  filterClamps : Nat
  coasts : Nat
deriving DecidableEq, Repr

/-- A register loop (R62). The history is kept newest first. -/
structure Loop where
  state : LoopState
  history : List Int
  lastGood : Option Int
  missRun : Nat
  settle : Nat
  last : Option LastOutput
  counts : LoopCounts
deriving DecidableEq, Repr

/-- The RLU: loops L1 to L8 at places 0 to 7. -/
structure Rlu where
  loops : Vector Loop 8
deriving DecidableEq, Repr

/-! ### Trim Output Unit (R80 to R92) -/

/-- A trim output (R80, R89). -/
structure Trim where
  pending : Int
  residue : Int
  acc : Nat
  line : Bool
  forward : BitVec 32
  reverse : BitVec 32
  saturations : Nat
  dropped : Nat
deriving DecidableEq, Repr

/-- The draw output (R90, R91): V, the last command as received, the clamp count, the period counter k
and the high time of the period in flight, in 1,024ths of the period. -/
structure Draw where
  v : Nat
  command : Int
  clamps : Nat
  k : Nat
  high : Nat
deriving DecidableEq, Repr

/-- The TOU: trim outputs T1 to T8 at places 0 to 7, and the draw output. -/
structure Tou where
  trims : Vector Trim 8
  draw : Draw
deriving DecidableEq, Repr

/-! ### Emboss Controller (R93 to R112) -/

/-- The nip states. -/
inductive NipState where
  | lifted
  | engaging
  | engaged
  | lifting
deriving DecidableEq, Repr

/-- The causes of a nip change and of the last lift, in the order of their codes (R184). -/
inductive NipCause where
  | host
  | auto
  | timer
  | splice
  | spliceLost
  | speed
  | phase
  | wrongRepeat
  | job
deriving DecidableEq, Repr

/-- A watched splice (R108). `liftPassed` says that D had passed its lift point at the last count of D, or at
the handover, or when settings last became active (log entry 4). -/
structure Watched where
  pos : Pos
  stamp : Option Nat
  liftPassed : Bool
deriving DecidableEq, Repr

/-- The last downstream record (R94). -/
structure LastDown where
  index : Nat
  keyD : HalfPos
  seen : Bool
  seenUp : Bool
deriving DecidableEq, Repr

/-- The pairing key (R94). The nip state is the one stamped, absent before the stamp. -/
structure PairKey where
  index : Nat
  keyD : HalfPos
  fiducial : Bool
  nip : Option Bool
  splice : Bool
  paired : Bool
deriving DecidableEq, Repr

/-- The EMC's counts (R112). -/
structure EmcCounts where
  unidentified : Nat
  skipped : Nat
  predicted : Nat
  stretchRejects : Nat
  unpaired : Nat
  wrongRepeats : Nat
  missing : Nat
  lostWatch : Nat
deriving DecidableEq, Repr

/-- The EMC (R94). The next record to stamp at the nip is the oldest record in the store whose index is
at least `stampFrom` (R95, R110). -/
structure Emc where
  nip : NipState
  timer : Timer
  lastLift : NipCause
  autoPending : Bool
  watch : List Watched
  lastDown : Option LastDown
  lastLD : Option Int
  pairKey : Option PairKey
  gap : Nat
  stretch : List Int
  wrongRun : Nat
  overRun : Nat
  stampFrom : Nat
  counts : EmcCounts
deriving DecidableEq, Repr

/-! ### Shade Unit (R113 to R126) -/

/-- A trigger (R116). -/
structure Trigger where
  index : Nat
  pos : Pos
deriving DecidableEq, Repr

/-- A calibrated OK answer (R122). -/
structure Reading where
  l : Int
  a : Int
  b : Int
  clamped : Bool
deriving DecidableEq, Repr

/-- A poll cycle in POLLING (R116). Heads 1 to 4 are 0 to 3. -/
structure PollCycle where
  index : Nat
  seq : Byte
  todo : List (Fin 4)
  inFlight : Option (Fin 4)
  answers : List Reading
deriving DecidableEq, Repr

/-- A head's own counts (R126). -/
structure HeadCounts where
  polls : Nat
  ok : Nat
  lamp : Nat
  notReady : Nat
  failures : Nat
  cutShort : Nat
deriving DecidableEq, Repr

/-- A head entry (R117). -/
structure Head where
  absent : Bool
  failures : Nat
  lamp : Bool
  counts : HeadCounts
deriving DecidableEq, Repr

/-- The unit's counts (R125). -/
structure ShuCounts where
  triggers : Nat
  overflows : Nat
  overruns : Nat
  misses : Nat
  samples : Nat
  clamped : Nat
  side : Nat
  stale : Nat
  bad : Nat
deriving DecidableEq, Repr

/-- A poll frame on the head line: address place and sequence number. -/
structure Poll where
  head : Fin 4
  seq : Byte
deriving DecidableEq, Repr

/-- The SHU (R116). The cycle is absent in IDLE. `sending` are the polls whose last byte has not yet
been sent, and `answer` the bytes of the partial answer, its start byte first (R115). `triggerOut` is the
level of the trigger output (R119). -/
structure Shu where
  queue : List Trigger
  cycle : Option PollCycle
  nextSeq : Byte
  heads : Vector Head 4
  timer : Timer
  sending : List Poll
  answer : List Byte
  triggerOut : Bool
  counts : ShuCounts
deriving DecidableEq, Repr

/-! ### Winder Controller (R127 to R150) -/

/-- A roll's mode (R128). -/
inductive RollMode where
  | pattern
  | length
deriving DecidableEq, Repr

/-- A roll's grade (R156). -/
inductive Grade where
  | a
  | b
  | r
deriving DecidableEq, Repr

/-- A label fault's code: a digit, or T (R168). -/
inductive FaultCode where
  | digit (d : Fin 10)
  | timeout
deriving DecidableEq, Repr

/-- A label status (R128). -/
inductive LabelStatus where
  | none
  | queued
  | sent
  | confirmed
  | skipped
  | fault (code : FaultCode)
deriving DecidableEq, Repr

/-- The seven kind counts and the defect repeat count (R155). -/
structure Defects where
  regOut : Nat
  embOut : Nat
  notEmbossed : Nat
  wrongRepeat : Nat
  tracking : Nat
  side : Nat
  remark : Nat
  repeats : Nat
deriving DecidableEq, Repr

/-- A roll's shade mean and spread (R154). -/
structure RollShade where
  l : Int
  a : Int
  b : Int
  spread : Nat
deriving DecidableEq, Repr

/-- A roll's batch number and batch ΔE (R157). -/
structure RollBatch where
  number : Nat
  deltaE : Nat
deriving DecidableEq, Repr

/-- What a slot holds of one roll (R128). `overlength` is OVERLENGTH with its extra repeats. -/
structure Roll where
  number : Nat
  firstIndex : Nat
  count : Nat
  target : Nat
  mode : RollMode
  start : Pos
  length : Option Int
  matchOffset : Nat
  design : Nibble
  short : Bool
  overlength : Bool
  extra : Nat
  trackLost : Bool
  defects : Defects
  shade : Option RollShade
  samples : Nat
  grade : Option Grade
  batch : Option RollBatch
  label : LabelStatus
deriving DecidableEq, Repr

/-- The states of a slot that is not FREE (R128). -/
inductive SlotPhase where
  | winding
  | cut
  | labelPending
  | labelled
deriving DecidableEq, Repr

/-- A slot of the roll directory: FREE, with every field absent, or in use (R128). -/
inductive Slot where
  | free
  | used (phase : SlotPhase) (roll : Roll)
deriving DecidableEq, Repr

/-- The winder states. -/
inductive WinderState where
  | idle
  | threading
  | winding
  | cutArmed
  | knife
  | indexing
deriving DecidableEq, Repr

/-- The kinds of cut (R130). -/
inductive CutKind where
  | start
  | target
  | forced
  | length
  | final
deriving DecidableEq, Repr

/-- An armed cut (R130). The closing record is absent for LENGTH and FINAL; a START cut has its start
record there. -/
structure ArmedCut where
  kind : CutKind
  closing : Option Nat
  cutPos : Pos
  firePos : Pos
deriving DecidableEq, Repr

/-- What follows a cut (R130). -/
inductive Follows where
  | roll
  | waste
  | end_
deriving DecidableEq, Repr

/-- Where the start record is looked for, in THREADING alone (R130, R133, R140): none; the oldest record not
yet taken whose index is at least a bound; or the record a splice cut-out names, while the store does not
yet hold it. -/
inductive StartRef where
  | none
  | from_ (index : Nat)
  | cutOut (splice extra : Nat)
deriving DecidableEq, Repr

/-- What follows the cut last fired: with ROLL, the record the next roll begins with and the position
the knife cut at; `lengthMode` is set when R144 has marked that roll. With WASTE, `thread` is where the
threading will look for its start record: at the cut-out that a splice's cut names (R140), or at the oldest
record not yet taken (R133). -/
structure Following where
  what : Follows
  first : Nat
  cutPos : Pos
  lengthMode : Bool
  thread : StartRef
deriving DecidableEq, Repr

/-- The closing record sought (R135, R142): by the rule of R135 among records from an index on, or the
next record in the store from an index on, after a deferral. -/
inductive CloseRef where
  | seek (from_ : Nat)
  | next (from_ : Nat)
deriving DecidableEq, Repr

/-- A record's cut-start position, held by the WNC until the record is taken (R131). -/
structure CutStart where
  index : Nat
  pos : Pos
deriving DecidableEq, Repr

/-- The WNC's counts (R150). -/
structure WncCounts where
  cut : Nat
  short : Nat
  wasted : Nat
  startCuts : Nat
  deferrals : Nat
  startDeferrals : Nat
  doffs : Nat
  ignoredDoffs : Nat
  lengthRolls : Nat
deriving DecidableEq, Repr

/-- The WNC (R128, R130). `held` are the indices of the records held for the next roll, `rollTarget` the
target length in force since the winding roll's start (R127). The lengths are kept oldest first. -/
structure Wnc where
  slots : Vector Slot 12
  state : WinderState
  gateOpen : Bool
  knifeOn : Bool
  turretOn : Bool
  stopOn : Bool
  winding : Option (Fin 12)
  armed : Option ArmedCut
  close : CloseRef
  follows : Option Following
  held : List Nat
  start : StartRef
  waste : Option (Nat × Nat)
  cutStarts : List CutStart
  design : Nibble
  lengths : List Int
  rollTarget : Nat
  startDeferral : Nat
  nextRoll : Nat
  knife : Timer
  turret : Timer
  counts : WncCounts
deriving DecidableEq, Repr

/-! ### Grading Unit (R151 to R162) -/

/-- Why a batch was closed (R160). -/
inductive CloseCause where
  | lru
  | host
  | job
deriving DecidableEq, Repr

/-- One shade batch (R152). The closing stamp and cause are absent while it is OPEN. -/
structure Batch where
  number : Nat
  l : Int
  a : Int
  b : Int
  rolls : Nat
  length : Nat
  firstRoll : Nat
  lastRoll : Nat
  lastUse : BitVec 32
  closed : Option (BitVec 32 × CloseCause)
deriving DecidableEq, Repr

/-- The GRU's counts (R162). -/
structure GruCounts where
  gradedA : Nat
  gradedB : Nat
  gradedR : Nat
  unknown : Nat
  opened : Nat
  lru : Nat
  host : Nat
deriving DecidableEq, Repr

/-- The GRU (R152). An EMPTY entry is absent. -/
structure Gru where
  table : Vector (Option Batch) 8
  nextBatch : Nat
  use : BitVec 32
  counts : GruCounts
deriving DecidableEq, Repr

/-! ### Label Unit (R163 to R171) -/

/-- The labeller states. -/
inductive LabellerState where
  | idle
  | await
  | faultHold
deriving DecidableEq, Repr

/-- A label record in transmission: its bytes, and whether its CR starts the reply timer (R167). -/
structure SentLabel where
  bytes : List Byte
  startsTimer : Bool
deriving DecidableEq, Repr

/-- The LBU's counts (R171). -/
structure LbuCounts where
  sent : Nat
  resends : Nat
  confirmed : Nat
  skipped : Nat
  faults : Nat
  timeouts : Nat
  ignored : Nat
  bad : Nat
deriving DecidableEq, Repr

/-- The LBU: the label queue, the composed record of the head, an F whose digit has not yet come
(R168), and the records still being transmitted, the first of them on the line. -/
structure Lbu where
  state : LabellerState
  queue : List (Fin 12)
  composed : Option (List Byte)
  gotF : Bool
  sending : List SentLabel
  timer : Timer
  counts : LbuCounts
deriving DecidableEq, Repr

/-! ### Link Unit (R172 to R184) -/

/-- The job states. -/
inductive JobState where
  | standby
  | ready
  | armed
  | draining
deriving DecidableEq, Repr

/-- The cause of a JOB notice: an order by its kind, DRAINED or START (R177, R184). -/
inductive JobCause where
  | jobLoad
  | arm
  | jobEnd
  | jobAbort
  | drained
  | start
deriving DecidableEq, Repr

/-- The causes of a LOOP notice (R69); `unstated` is the free cause of log entry 2. -/
inductive LoopCause where
  | misses
  | lost
  | sample
  | unstated (code : Byte)
deriving DecidableEq, Repr

/-- The kinds of change of a HEAD notice (R120). -/
inductive HeadChange where
  | absent
  | restored
  | lampOn
  | lampOff
deriving DecidableEq, Repr

/-- Why a roll was wasted (R138, R148). -/
inductive WastedCause where
  | minRoll
  | abort
deriving DecidableEq, Repr

/-- The events of a LABEL notice (R167 to R169). -/
inductive LabelEvent where
  | sent
  | confirmed
  | fault (code : FaultCode)
  | resent
  | skipped
deriving DecidableEq, Repr

/-- The fields of a notice, as the rule that raises it names them (R184). SPLICE_LOST has two forms: R35
carries the splice's position, R108 carries D and the stamp. -/
inductive NoticeBody where
  | track (old new : Tracking) (next : Nat) (u : Pos)
  | loop (loop : Fin 8) (old new : LoopState) (cause : LoopCause) (index : Nat)
  | trimSat (output : Fin 8) (dropped : Nat) (pending : Int) (source : Option (Fin 8))
  | nip (old new : NipState) (cause : NipCause) (d : Pos)
  | spliceLost (s : Pos)
  | spliceLostWatch (d : Pos) (stamp : Option Nat)
  | storeFull (index : Nat)
  | lateWrite (part : Part) (index roll : Nat)
  | head (head : Fin 4) (change : HeadChange) (seq : Byte) (d : Pos)
  | rollStart (slot : Fin 12) (roll first target : Nat) (mode : RollMode) (design : Nibble) (start : Pos)
  | rollCut (slot : Fin 12) (roll count : Nat) (length : Int) (mode : RollMode)
      (short overlength trackLost : Bool) (extra : Nat)
  | rollWasted (roll : Nat) (slot : Fin 12) (freed : Nat) (cause : WastedCause)
  | doff (slot : Option (Fin 12 × Nat))
  | stopOn (roll : Option Nat) (extra : Nat)
  | stopOff
  | graded (slot : Fin 12) (roll : Nat) (grade : Grade) (batch : Option RollBatch) (defects : Nat)
      (spread : Option Nat)
  | batchOpen (number : Nat) (entry : Fin 8) (l a b : Int) (roll : Nat)
  | batchClosed (number : Nat) (entry : Fin 8) (cause : CloseCause) (rolls lastRoll : Nat)
  | label (slot : Fin 12) (roll : Nat) (event : LabelEvent)
  | job (old new : JobState) (cause : JobCause)
deriving DecidableEq, Repr

/-- A notice in the queue: the missed count and the time base when it was raised, and its fields (R175). -/
structure Notice where
  missed : Nat
  time : BitVec 32
  body : NoticeBody
deriving DecidableEq, Repr

/-- A frame of the host link less its start, length and check (R172). -/
structure Frame where
  kind : Byte
  tag : Byte
  body : List Byte
deriving DecidableEq, Repr

/-- What the transmitter is sending (R176). -/
inductive Sending where
  | answer (f : Frame)
  | notice (n : Notice)
deriving DecidableEq, Repr

/-- The link counts (R173, R174). -/
structure LinkCounts where
  noise : Nat
  badLength : Nat
  badCheck : Nat
  gap : Nat
  badKind : Nat
  busy : Nat
deriving DecidableEq, Repr

/-- The framing side of the LKU (R173 to R176): the bytes after the start byte of the frame being
assembled, the order queue, the answers ready to send, the frame being sent, the notice queue and
the missed count, and the rate the link runs at (57,600, 115,200, 230,400 or 460,800 baud). -/
structure Link where
  assembling : Option (List Byte)
  gapTimer : Timer
  orders : List Frame
  answers : List Frame
  sending : Option Sending
  notices : List Notice
  missed : Nat
  rate : Fin 4
  counts : LinkCounts
deriving DecidableEq, Repr

/-- The device record (R180). -/
structure Device where
  rate : Fin 4
  startup : Option (Fin 4)
deriving DecidableEq, Repr

/-- What a programming writes (R181). -/
inductive ProgTarget where
  | job (slot : Fin 4) (contents : JobSettings)
  | device (contents : Device)
deriving DecidableEq, Repr

/-- The programming in flight, with the tag its answer will carry (R181). -/
structure Programming where
  target : ProgTarget
  tag : Byte
deriving DecidableEq, Repr

/-- Job control (R177, R181): the job state, the programming in flight with its timer, and an answer
whose programming ended while 8 answers were held (R174). -/
structure JobCtl where
  state : JobState
  prog : Option Programming
  timer : Timer
  waiting : Option Frame
deriving DecidableEq, Repr

/-- The job store (R180): four job records and the device record, absent while their valid mark is
cleared. It holds through power loss. -/
structure JobStore where
  jobs : Vector (Option JobSettings) 4
  device : Option Device
deriving DecidableEq, Repr

/-! ### The whole state -/

/-- The state of the part. `act` are the active settings (R178), `free` the model's counter of free
values, and `pending` the commands that wait, first in, first out. -/
structure State where
  epu : Epu
  mrd : Mrd
  rtk : Rtk
  rst : Rst
  rlu : Rlu
  tou : Tou
  emc : Emc
  shu : Shu
  wnc : Wnc
  gru : Gru
  lbu : Lbu
  link : Link
  job : JobCtl
  act : JobSettings
  store : JobStore
  free : Nat
  pending : List Instr
deriving DecidableEq, Repr

/-- The reasons the machine stops with a fault. There are none: the manual names no event that stops
the part, and every command leaves it in a next state. -/
inductive Fault where
deriving DecidableEq, Repr

/-- The reasons a command is refused by the model. A refusal of an order by the part is an answer, not
one of these. -/
inductive Refusal where
  /-- Raised by an arm of exec whose command has no meaning yet. Safe: the run stops. -/
  | notModelled (mnemonic : String)
deriving DecidableEq, Repr

/-! ### Reset values -/

/-- R2, R3, R4. -/
def Counter.reset : Counter := { pos := 0, highWater := 0, fresh := true, speed := 0, measuredAt := 0 }

/-- R18. -/
def ReaderCounts.zero : ReaderCounts := ⟨0, 0, 0, 0, 0⟩

/-- R7, R8; the level of the scanner input is light. -/
def Reader.reset : Reader :=
  { scannerDark := false, level := false, lead := none, counts := .zero }

/-- R39. -/
def RtkCounts.zero : RtkCounts := ⟨0, 0, 0, 0, 0, 0, 0, 0⟩

/-- R23, R35. -/
def Rtk.reset : Rtk :=
  { state := .idle, nextIndex := 0, last := none, history := [], run := [], window := none,
    predictedRun := 0, gapPending := false, storeFull := false, splices := [], counts := .zero }

/-- R52, R54, R57. -/
def Rst.reset : Rst :=
  { records := [], peak := 0, late := ⟨0, 0, 0, 0, 0⟩, orphans := 0, amend := none }

/-- R62. -/
def LoopCounts.zero : LoopCounts := ⟨0, 0, 0, 0, 0, 0, 0⟩

/-- R62. -/
def Loop.reset : Loop :=
  { state := .off, history := [], lastGood := none, missRun := 0, settle := 0, last := none,
    counts := .zero }

/-- R80, R89. -/
def Trim.reset : Trim :=
  { pending := 0, residue := 0, acc := 0, line := false, forward := 0, reverse := 0,
    saturations := 0, dropped := 0 }

/-- R90, R91: midscale, 32,768 = 64 × 512, from the start of a cycle of 64 periods (log entry 35). -/
def Draw.reset : Draw := { v := 32768, command := 0, clamps := 0, k := 0, high := 512 }

/-- R112. -/
def EmcCounts.zero : EmcCounts := ⟨0, 0, 0, 0, 0, 0, 0, 0⟩

/-- R94, R108; the nip timer's reload is the engage time (log entry 3). R94 has no value at a cold reset for
the next record to stamp: the model sets it to the oldest record (DESIGN CHOICE, log entry 43). -/
def Emc.reset : Emc :=
  { nip := .lifted, timer := .idle 450, lastLift := .host, autoPending := false, watch := [],
    lastDown := none, lastLD := none, pairKey := none, gap := 1, stretch := [], wrongRun := 0,
    overRun := 0, stampFrom := 0, counts := .zero }

/-- R125. -/
def ShuCounts.zero : ShuCounts := ⟨0, 0, 0, 0, 0, 0, 0, 0, 0⟩

/-- R126. -/
def HeadCounts.zero : HeadCounts := ⟨0, 0, 0, 0, 0, 0⟩

/-- R117. -/
def Head.reset : Head := { absent := false, failures := 0, lamp := false, counts := .zero }

/-- R116, R117; nothing on the head line, either way (log entry 17). -/
def Shu.reset : Shu :=
  { queue := [], cycle := none, nextSeq := 0,
    heads := #v[Head.reset, Head.reset, Head.reset, Head.reset], timer := .idle 40, sending := [],
    answer := [], triggerOut := false, counts := .zero }

/-- R155: no defect counted yet. -/
def Defects.zero : Defects := ⟨0, 0, 0, 0, 0, 0, 0, 0⟩

/-- R150. -/
def WncCounts.zero : WncCounts := ⟨0, 0, 0, 0, 0, 0, 0, 0, 0⟩

/-- R128: every slot FREE. -/
def emptySlots : Vector Slot 12 :=
  #v[.free, .free, .free, .free, .free, .free, .free, .free, .free, .free, .free, .free]

/-- R128, R129, R130. -/
def Wnc.reset : Wnc :=
  { slots := emptySlots, state := .idle, gateOpen := true, knifeOn := false, turretOn := false,
    stopOn := false, winding := none, armed := none, close := .seek 0, follows := none, held := [],
    start := .none, waste := none, cutStarts := [], design := 0, lengths := [], rollTarget := 400000,
    startDeferral := 0, nextRoll := 1, knife := .idle 125, turret := .idle 15000, counts := .zero }

/-- R162. -/
def GruCounts.zero : GruCounts := ⟨0, 0, 0, 0, 0, 0, 0⟩

/-- R152: every entry EMPTY. -/
def emptyBatches : Vector (Option Batch) 8 := #v[none, none, none, none, none, none, none, none]

/-- R152. -/
def Gru.reset : Gru := { table := emptyBatches, nextBatch := 1, use := 0, counts := .zero }

/-- R171. -/
def LbuCounts.zero : LbuCounts := ⟨0, 0, 0, 0, 0, 0, 0, 0⟩

/-- R164, R170. -/
def Lbu.reset : Lbu :=
  { state := .idle, queue := [], composed := none, gotF := false, sending := [],
    timer := .idle 8000, counts := .zero }

/-- R173, R174, R183. -/
def LinkCounts.zero : LinkCounts := ⟨0, 0, 0, 0, 0, 0⟩

/-- The JOB notice of a start in STANDBY (R183). -/
def startNotice : Notice := { missed := 0, time := 0, body := .job .standby .standby .start }

/-- The state right after a cold reset with a blank job store: no device record, so the link runs at
115,200 baud and the job state is STANDBY (R183). The START notice has begun its transmission,
since the transmitter is free (R175, R176). -/
def State.reset : State :=
  { epu := { u := .reset, d := .reset, timeBase := 0, intervalUnits := 0, measureDue := false }
    mrd := { print := .reset, emboss := .reset, group := none, embossGroup := none, held := [] }
    rtk := .reset
    rst := .reset
    rlu := { loops := #v[Loop.reset, Loop.reset, Loop.reset, Loop.reset, Loop.reset, Loop.reset,
                         Loop.reset, Loop.reset] }
    tou := { trims := #v[Trim.reset, Trim.reset, Trim.reset, Trim.reset, Trim.reset, Trim.reset,
                         Trim.reset, Trim.reset]
             draw := .reset }
    emc := .reset
    shu := .reset
    wnc := .reset
    gru := .reset
    lbu := .reset
    link := { assembling := none, gapTimer := .idle 30, orders := [], answers := [],
              sending := some (.notice startNotice), notices := [], missed := 0, rate := 1,
              counts := .zero }
    job := { state := .standby, prog := none, timer := .idle 300, waiting := none }
    act := defaultSettings
    store := { jobs := #v[none, none, none, none], device := none }
    free := 0
    pending := [] }

/-! ### One field replaced -/

/-- The state with the EPU replaced. -/
def State.setEpu (s : State) (x : Epu) : State := { s with epu := x }

/-- The state with the Mark Readers replaced. -/
def State.setMrd (s : State) (x : Mrd) : State := { s with mrd := x }

/-- The state with the Repeat Tracker replaced. -/
def State.setRtk (s : State) (x : Rtk) : State := { s with rtk := x }

/-- The state with the Repeat Store replaced. -/
def State.setRst (s : State) (x : Rst) : State := { s with rst := x }

/-- The state with the Register Loop Unit replaced. -/
def State.setRlu (s : State) (x : Rlu) : State := { s with rlu := x }

/-- The state with the Trim Output Unit replaced. -/
def State.setTou (s : State) (x : Tou) : State := { s with tou := x }

/-- The state with the Emboss Controller replaced. -/
def State.setEmc (s : State) (x : Emc) : State := { s with emc := x }

/-- The state with the Shade Unit replaced. -/
def State.setShu (s : State) (x : Shu) : State := { s with shu := x }

/-- The state with the Winder Controller replaced. -/
def State.setWnc (s : State) (x : Wnc) : State := { s with wnc := x }

/-- The state with the Grading Unit replaced. -/
def State.setGru (s : State) (x : Gru) : State := { s with gru := x }

/-- The state with the Label Unit replaced. -/
def State.setLbu (s : State) (x : Lbu) : State := { s with lbu := x }

/-- The state with the framing side of the Link Unit replaced. -/
def State.setLink (s : State) (x : Link) : State := { s with link := x }

/-- The state with job control replaced. -/
def State.setJob (s : State) (x : JobCtl) : State := { s with job := x }

/-- The state with the active settings replaced. -/
def State.setAct (s : State) (x : JobSettings) : State := { s with act := x }

/-- The state with the job store replaced. -/
def State.setStore (s : State) (x : JobStore) : State := { s with store := x }

/-- The state with the counter of free values replaced. -/
def State.setFree (s : State) (x : Nat) : State := { s with free := x }

/-- The state with the queue of commands replaced. -/
def State.setPending (s : State) (x : List Instr) : State := { s with pending := x }

end Sys2Proof.Machine
end

