-- ==== Sys2Proof/Machine/Frames.lean ====
section
/-! DEFINITION. The order frames of the host link: each order as a frame and back (R172, R184), the wire
bytes of a frame, and the answers. -/

namespace Sys2Proof.Machine

/-! ### Orders as frames (R172, R184) -/

/-- The frame that carries an order; none for the commands that are no orders. -/
def orderFrame : Instr → Option Frame
  | .coldReset => none
  | .encoderCount _ _ => none
  | .scannerEdge _ _ => none
  | .speedMeasurement => none
  | .splicePulse => none
  | .doffPulse => none
  | .trimStep _ => none
  | .drawPeriodEnd => none
  | .nipTimerExpiry => none
  | .knifeTimerExpiry => none
  | .turretTimerExpiry => none
  | .headTimeoutExpiry => none
  | .pollSent => none
  | .headByteReceived _ => none
  | .headAnswerGap => none
  | .labellerByteReceived _ => none
  | .labelCrTransmitted => none
  | .replyTimerExpiry => none
  | .hostByteReceived _ => none
  | .frameGapTimerExpiry => none
  | .frameTransmitted => none
  | .storeProgrammingTimerExpiry => none
  | .ident tag => some ⟨1, tag, []⟩
  | .status tag page => some ⟨2, tag, [page]⟩
  | .restart tag => some ⟨3, tag, []⟩
  | .jobLoad tag slot => some ⟨4, tag, [slot]⟩
  | .arm tag => some ⟨5, tag, []⟩
  | .jobEnd tag => some ⟨6, tag, []⟩
  | .jobAbort tag => some ⟨7, tag, []⟩
  | .jobClear tag => some ⟨8, tag, []⟩
  | .jobSet tag group contents => some ⟨9, tag, group :: contents⟩
  | .jobRead tag source group => some ⟨10, tag, [source, group]⟩
  | .jobStore tag slot => some ⟨11, tag, [slot]⟩
  | .deviceSet tag rate startup => some ⟨12, tag, [rate, startup]⟩
  | .codeSet tag entry active kind design counter => some ⟨13, tag, [entry, active, kind, design, counter]⟩
  | .loopSet tag loop action => some ⟨14, tag, [loop, action]⟩
  | .loopRead tag loop => some ⟨15, tag, [loop]⟩
  | .trimJog tag output steps => some ⟨16, tag, output :: le 2 steps.toNat⟩
  | .engage tag => some ⟨17, tag, []⟩
  | .lift tag => some ⟨18, tag, []⟩
  | .remark tag index value => some ⟨19, tag, le 4 index.toNat ++ [value]⟩
  | .amendWindow tag first last => some ⟨20, tag, le 4 first.toNat ++ le 4 last.toNat⟩
  | .repeatRead tag selector index => some ⟨21, tag, selector :: le 4 index.toNat⟩
  | .rollRead tag choice number => some ⟨22, tag, choice :: le 4 number.toNat⟩
  | .batchRead tag choice number => some ⟨23, tag, choice :: le 2 number.toNat⟩
  | .batchClose tag number => some ⟨24, tag, le 2 number.toNat⟩
  | .labelResend tag => some ⟨25, tag, []⟩
  | .labelSkip tag => some ⟨26, tag, []⟩
  | .timeBaseUnit => none

/-- A word of two bytes of a body. -/
def word16 (a b : Byte) : BitVec 16 := BitVec.ofNat 16 (fromLe [a, b])

/-- A word of four bytes of a body. -/
def word32 (a b c d : Byte) : BitVec 32 := BitVec.ofNat 32 (fromLe [a, b, c, d])

/-- The order of a body of no bytes. -/
def body0 (i : Instr) : List Byte → Option Instr
  | [] => some i
  | _ => none

/-- The order of a body of one byte. -/
def body1 (g : Byte → Instr) : List Byte → Option Instr
  | [a] => some (g a)
  | _ => none

/-- The order of a body of two bytes. -/
def body2 (g : Byte → Byte → Instr) : List Byte → Option Instr
  | [a, b] => some (g a b)
  | _ => none

/-- The order of a body of a byte and a two-byte word. -/
def body12 (g : Byte → BitVec 16 → Instr) : List Byte → Option Instr
  | [x, a, b] => some (g x (word16 a b))
  | _ => none

/-- The order of a body of a byte and a four-byte word. -/
def body14 (g : Byte → BitVec 32 → Instr) : List Byte → Option Instr
  | [x, a, b, c, d] => some (g x (word32 a b c d))
  | _ => none

/-- The order of CODE SET's body: five bytes. -/
def body5 (g : Byte → Byte → Byte → Byte → Byte → Instr) : List Byte → Option Instr
  | [a, b, c, d, e] => some (g a b c d e)
  | _ => none

/-- The order of REMARK's body: a four-byte word and a byte. -/
def body41 (g : BitVec 32 → Byte → Instr) : List Byte → Option Instr
  | [a, b, c, d, x] => some (g (word32 a b c d) x)
  | _ => none

/-- The order of AMEND WINDOW's body: two four-byte words. -/
def body44 (g : BitVec 32 → BitVec 32 → Instr) : List Byte → Option Instr
  | [a, b, c, d, e, f, h, i] => some (g (word32 a b c d) (word32 e f h i))
  | _ => none

/-- The order of BATCH CLOSE's body: a two-byte word. -/
def bodyWord (g : BitVec 16 → Instr) : List Byte → Option Instr
  | [a, b] => some (g (word16 a b))
  | _ => none

/-- The order of JOB SET's body: a byte and any contents. -/
def bodyMany (g : Byte → List Byte → Instr) : List Byte → Option Instr
  | a :: rest => some (g a rest)
  | [] => none

/-- The order of a frame whose kind is 1 to 26; none when the body's length is not one that the kind
allows (R174, R184). -/
def ofFrame (f : Frame) : Option Instr :=
  match f.kind.toNat with
  | 1 => body0 (.ident f.tag) f.body
  | 2 => body1 (.status f.tag) f.body
  | 3 => body0 (.restart f.tag) f.body
  | 4 => body1 (.jobLoad f.tag) f.body
  | 5 => body0 (.arm f.tag) f.body
  | 6 => body0 (.jobEnd f.tag) f.body
  | 7 => body0 (.jobAbort f.tag) f.body
  | 8 => body0 (.jobClear f.tag) f.body
  | 9 => bodyMany (.jobSet f.tag) f.body
  | 10 => body2 (.jobRead f.tag) f.body
  | 11 => body1 (.jobStore f.tag) f.body
  | 12 => body2 (.deviceSet f.tag) f.body
  | 13 => body5 (.codeSet f.tag) f.body
  | 14 => body2 (.loopSet f.tag) f.body
  | 15 => body1 (.loopRead f.tag) f.body
  | 16 => body12 (.trimJog f.tag) f.body
  | 17 => body0 (.engage f.tag) f.body
  | 18 => body0 (.lift f.tag) f.body
  | 19 => body41 (.remark f.tag) f.body
  | 20 => body44 (.amendWindow f.tag) f.body
  | 21 => body14 (.repeatRead f.tag) f.body
  | 22 => body14 (.rollRead f.tag) f.body
  | 23 => body12 (.batchRead f.tag) f.body
  | 24 => bodyWord (.batchClose f.tag) f.body
  | 25 => body0 (.labelResend f.tag) f.body
  | 26 => body0 (.labelSkip f.tag) f.body
  | _ => none

/-! ### Frames on the wire (R172) -/

/-- The start byte of a frame. -/
def frameStart : Byte := 0xC3

/-- The bytes the check covers: length, kind, tag and body (R172). -/
def Frame.checked (f : Frame) : List Byte :=
  BitVec.ofNat 8 (f.body.length + 2) :: f.kind :: f.tag :: f.body

/-- A frame as it travels (R172). -/
def Frame.wire (f : Frame) : List Byte := frameStart :: f.checked ++ crcBytes f.checked

/-! ### Answers (R172, R174) -/

/-- The refusal codes (R172). -/
inductive Refused where
  | length
  | kind
  | value
  | state
  | busy
  | protected_
  | notFound
  | clearance
deriving DecidableEq, Repr

/-- The number of a refusal code (R172). -/
def Refused.code : Refused → Byte
  | .length => 1
  | .kind => 2
  | .value => 3
  | .state => 4
  | .busy => 5
  | .protected_ => 6
  | .notFound => 7
  | .clearance => 8

/-- The answer that accepts an order of a kind and tag, with the data its rule names. -/
def accepted (kind tag : Byte) (data : List Byte) : Frame := ⟨kind + 128, tag, 0 :: data⟩

/-- The answer that refuses an order of a kind and tag. -/
def refusal (kind tag : Byte) (r : Refused) : Frame := ⟨kind + 128, tag, [r.code]⟩

end Sys2Proof.Machine
end

