-- ==== Sys2Proof/Machine/Ops.lean ====
section
/-! DEFINITION. The named operations every block shares: timers (R6), raising a notice (R175), the
transmitter's choice (R176), and the Repeat Store's making, writing, closing, freeing and looking up
of records (R40 to R58). -/

namespace Sys2Proof.Machine

/-! ### Timers (R6) -/

/-- Start: the current value is set to the reload and the timer runs. An expiry not yet taken is gone. -/
def Timer.start (t : Timer) (reload : Nat) : Timer :=
  { t with reload, current := reload, running := true, due := false }

/-- Stop: the timer is idle with current value 0, and no expiry follows. -/
def Timer.stop (t : Timer) : Timer := { t with current := 0, running := false, due := false }

/-- One unit of the time base: a running timer's current value falls by one; at 0 the timer becomes
idle and its expiry goes to the owning block. -/
def Timer.tick (t : Timer) : Timer :=
  if t.running then
    if t.current ≤ 1 then { t with current := 0, running := false, due := true }
    else { t with current := t.current - 1 }
  else t

/-- The owning block takes the expiry: the timer is idle with current value 0. -/
def Timer.expire (t : Timer) : Timer := { t with current := 0, running := false, due := false }

/-- A new reload leaves the current value as it is. -/
def Timer.setReload (t : Timer) (reload : Nat) : Timer := { t with reload }

/-- The timer runs, or it has run out and its expiry has not yet been taken: an event that arrives together
with the expiry and is taken first still finds the timer running (R119). An expiry itself is taken only
when the timer has run out, and no longer once the owner has started or stopped it again (R6). -/
def Timer.live (t : Timer) : Bool := t.running || t.due

/-! ### Notices and answers (R174 to R176) -/

/-- The notice queue's capacity (R175). -/
def noticeCapacity : Nat := 32

/-- The number of answers the part holds ready to send (R174). -/
def answerCapacity : Nat := 8

/-- The number of orders the order queue holds (R174). -/
def orderCapacity : Nat := 4

/-- A notice joins the queue with the missed count and the time base, or is dropped and counted when
the queue is full (R175). -/
def Link.push (l : Link) (time : BitVec 32) (body : NoticeBody) : Link :=
  if l.notices.length < noticeCapacity then
    { l with notices := l.notices ++ [⟨l.missed, time, body⟩], missed := 0 }
  else { l with missed := bump l.missed }

/-- A block raises a notice (R175). -/
def raise (body : NoticeBody) (s : State) : State := s.setLink (s.link.push s.epu.timeBase body)

/-- The transmitter, when free, begins the oldest ready answer, or the oldest notice when no answer is
ready (R176). -/
def Link.pump (l : Link) : Link :=
  match l.sending, l.answers, l.notices with
  | none, a :: as, _ => { l with sending := some (.answer a), answers := as }
  | none, [], n :: ns => { l with sending := some (.notice n), notices := ns }
  | _, _, _ => l

/-- The end of an event: the transmitter, when free, begins the next frame. -/
def pump (s : State) : State := s.setLink s.link.pump

/-- The outcome of an event: the state after it, with the transmitter given its chance. -/
def done (s : State) : Host.Outcome State Fault Refusal := .next (pump s)

/-! ### Positions -/

/-- The present position of U. -/
def State.u (s : State) : Pos := s.epu.u.pos

/-- The present position of D. -/
def State.d (s : State) : Pos := s.epu.d.pos

/-- The readers, and the Emboss Controller's work on records, run in ARMED and DRAINING (R7, R95). -/
def State.lineRuns (s : State) : Bool := s.job.state == .armed || s.job.state == .draining

/-! ### Repeat Store (R40 to R58) -/

/-- The number of records the store holds at most (R40). -/
def storeCapacity : Nat := 512

/-- The rank of a stage in the order of R42. -/
def Stage.rank : Stage → Nat
  | .created => 0
  | .transferred => 1
  | .downstream => 2
  | .assigned => 3
  | .closed => 4

/-- A stage request: the later of the present stage and the one requested (R42). -/
def Stage.request (present requested : Stage) : Stage :=
  if present.rank < requested.rank then requested else present

/-- The record taken with a stage request (R42). -/
def Record.request (r : Record) (st : Stage) : Record := { r with stage := r.stage.request st }

/-- The record with an index, or none (R58). -/
def Rst.find (t : Rst) (i : Nat) : Option Record := t.records.find? (fun r => r.index == i)

/-- The oldest record in a stage, or none (R58). -/
def Rst.oldestIn (t : Rst) (st : Stage) : Option Record := t.records.find? (fun r => r.stage == st)

/-- The oldest record whose index is at least `i`, or none. -/
def Rst.fromIndex (t : Rst) (i : Nat) : Option Record := t.records.find? (fun r => i ≤ r.index)

/-- The newest record, or none. -/
def Rst.newest (t : Rst) : Option Record := t.records.getLast?

/-- The record's WND names a roll's slot and roll number. -/
def Record.inRoll (r : Record) (slot : Fin 12) (number : Nat) : Bool :=
  match r.wnd with
  | some ⟨.roll sl n _, _⟩ => sl == slot && n == number
  | _ => false

/-- The record's WND group has disposition WASTE. -/
def Record.isWaste (r : Record) : Bool :=
  match r.wnd with
  | some ⟨.waste, _⟩ => true
  | _ => false

/-- The roll number in the record's WND group; 0 when it has none. -/
def Record.rollNumber (r : Record) : Nat :=
  match r.wnd with
  | some ⟨.roll _ n _, _⟩ => n
  | _ => 0

/-- The records of a roll, in index order (R58). -/
def Rst.ofRoll (t : Rst) (slot : Fin 12) (number : Nat) : List Record :=
  t.records.filter (fun r => r.inRoll slot number)

/-- The late-write count of a part raised by one (R48, R57). -/
def LateCounts.raise (c : LateCounts) : Part → LateCounts
  | .header => { c with header := bump c.header }
  | .reg => { c with reg := bump c.reg }
  | .emb => { c with emb := bump c.emb }
  | .shd => { c with shd := bump c.shd }
  | .wnd => { c with wnd := bump c.wnd }

/-- Every record with the index changed by `f`; the others as they stand. -/
def Rst.update (t : Rst) (i : Nat) (f : Record → Record) : Rst :=
  { t with records := t.records.map (fun r => if r.index == i then f r else r) }

/-- A write of one part of the record with an index (R44 to R46, R48): an orphan when no record has the
index, refused with its late-write count and notice when the record is CLOSED, and otherwise the
change `f` of that part alone. -/
def writePart (part : Part) (i : Nat) (f : Record → Record) (s : State) : State :=
  match s.rst.find i with
  | none => s.setRst { s.rst with orphans := bump s.rst.orphans }
  | some r =>
    if r.stage = .closed then
      raise (.lateWrite part i r.rollNumber) (s.setRst { s.rst with late := s.rst.late.raise part })
    else s.setRst (s.rst.update i f)

/-- The store takes a new record at its newest end (R43): GAP_BEFORE is set when its index does not
follow the newest one, and the peak occupancy follows. The caller has tested the capacity. -/
def Rst.add (t : Rst) (r : Record) : Rst :=
  let follows := match t.newest with
    | none => true
    | some n => n.index + 1 == r.index
  let records := t.records ++ [if follows then r else { r with gapBefore := true }]
  { t with records, peak := max t.peak records.length }

/-- Removal of the records that satisfy `p`. `kept` says whether a record before these remains, and `gone` whether
records were removed between it and these: the record that then remains gets GAP_BEFORE. -/
def freeFrom (p : Record → Bool) (kept gone : Bool) : List Record → List Record
  | [] => []
  | r :: rs =>
    if p r then freeFrom p kept true rs
    else (if kept && gone then { r with gapBefore := true } else r) :: freeFrom p true false rs

/-- Removal of the records that satisfy `p` (R49 to R51): GAP_BEFORE is set on the record that remains
immediately after each run removed, unless that record is now the oldest. Removed in several runs, a gap is
left after each of them, and R40 has each of them marked (log entry 28). -/
def freeWhere (p : Record → Bool) (rs : List Record) : List Record := freeFrom p false false rs

/-- Closure of a roll: its records become CLOSED; the answer is their number (R47). -/
def Rst.close (t : Rst) (slot : Fin 12) (number : Nat) : Rst × Nat :=
  ({ t with records :=
      t.records.map fun r => if r.inRoll slot number then { r with stage := .closed } else r },
   (t.ofRoll slot number).length)

/-- Freeing of a roll: its records are removed; the answer is their number (R49, R51). -/
def Rst.freeRoll (t : Rst) (slot : Fin 12) (number : Nat) : Rst × Nat :=
  ({ t with records := freeWhere (fun r => r.inRoll slot number) t.records },
   (t.ofRoll slot number).length)

/-- Freeing of a waste run: the WASTE records in a range of indices are removed (R50, R51). -/
def Rst.freeWaste (t : Rst) (first last : Nat) : Rst :=
  { t with records :=
      freeWhere (fun r => first ≤ r.index && r.index ≤ last && r.isWaste) t.records }

/-- The store emptied (R52). -/
def Rst.empty (t : Rst) : Rst := { t with records := [] }

/-- The counts set to 0, the peak occupancy among them (R52, ARM). -/
def Rst.clearCounts (t : Rst) : Rst := { t with peak := 0, late := ⟨0, 0, 0, 0, 0⟩, orphans := 0 }

/-- A roll number lies within the amend window (R54). -/
def Rst.mayAmend (t : Rst) (number : Nat) : Bool :=
  match t.amend with
  | none => false
  | some (first, last) => first ≤ number && number ≤ last

/-! ### Roll directory (R128) -/

/-- The twelve slots by number. -/
def slotList : List (Fin 12) := [0, 1, 2, 3, 4, 5, 6, 7, 8, 9, 10, 11]

/-- The slot is in a phase. -/
def Slot.inPhase (x : Slot) (p : SlotPhase) : Bool :=
  match x with
  | .free => false
  | .used q _ => q == p

/-- The roll a slot describes, absent when it is FREE. -/
def Slot.roll? : Slot → Option Roll
  | .free => none
  | .used _ r => some r

/-- The lowest-numbered slot in a phase. -/
def Wnc.slotIn (w : Wnc) (p : SlotPhase) : Option (Fin 12) := slotList.find? (fun i => w.slots[i].inPhase p)

/-- A slot replaced. -/
def Wnc.setSlot (w : Wnc) (i : Fin 12) (x : Slot) : Wnc := { w with slots := w.slots.set i x }

/-- The roll in a slot changed; a FREE slot stays FREE. -/
def Wnc.changeRoll (w : Wnc) (i : Fin 12) (f : Roll → Roll) : Wnc :=
  match w.slots[i] with
  | .free => w
  | .used p r => w.setSlot i (.used p (f r))

/-- A slot moved to a phase; a FREE slot stays FREE. -/
def Wnc.setPhase (w : Wnc) (i : Fin 12) (p : SlotPhase) : Wnc :=
  match w.slots[i] with
  | .free => w
  | .used _ r => w.setSlot i (.used p r)

/-- The slot with a roll number, or none (R149). -/
def Wnc.slotOfRoll (w : Wnc) (number : Nat) : Option (Fin 12) :=
  slotList.find? (fun i => match w.slots[i] with
    | .free => false
    | .used _ r => r.number == number)

end Sys2Proof.Machine
end

