-- ==== Sys2Proof/Machine/Flags.lean ====
section
/-! DEFINITION. The arithmetic and the flag computations of the manual as pure functions: code words
(R15), the filter and the correction (R61, R72 to R74), steps and residue (R82), the draw mapping
(R90, R91), shade calibration and combination (R122, R123), colour differences, roll shade and
grade (R153 to R156). -/

namespace Sys2Proof.Machine

/-! ### Code words (R15) -/

/-- Cell `k` of a word, from 1; a cell that was not sampled reads 0. -/
def cell (cs : List Bool) (k : Nat) : Bool := cs.getD (k - 1) false

/-- The syndrome s = s1 + 2·s2 + 4·s3. -/
def syndrome (cs : List Bool) : Nat :=
  let c := cell cs
  (c 1 ^^ c 3 ^^ c 5 ^^ c 7).toNat + 2 * (c 2 ^^ c 3 ^^ c 6 ^^ c 7).toNat +
    4 * (c 4 ^^ c 5 ^^ c 6 ^^ c 7).toNat

/-- q: the eight cells hold an odd number of 1s. -/
def oddCells (cs : List Bool) : Bool :=
  let c := cell cs
  c 1 ^^ c 2 ^^ c 3 ^^ c 4 ^^ c 5 ^^ c 6 ^^ c 7 ^^ c 8

/-- The data value with cell `inv` inverted (0 inverts none): d1 + 2·d2 + 4·d3 + 8·d4 from cells 3, 5, 6
and 7. -/
def wordValue (cs : List Bool) (inv : Nat) : Nibble :=
  let c := fun k => cell cs k ^^ (k == inv)
  BitVec.ofNat 4 ((c 3).toNat + 2 * (c 5).toNat + 4 * (c 6).toNat + 8 * (c 7).toNat)

/-- The decode of a word of eight cells. -/
def decodeWord (cs : List Bool) : CodeWord :=
  let s := syndrome cs
  match oddCells cs, s == 0 with
  | false, true => ⟨.clean, some (wordValue cs 0)⟩
  | true, false => ⟨.corrected, some (wordValue cs s)⟩
  | true, true => ⟨.corrected, some (wordValue cs 8)⟩
  | false, false => ⟨.uncorrectable, none⟩

/-- The kind, design and counter words of 24 cells (R13). -/
def kindWord (cells : List Bool) : CodeWord := decodeWord (cells.take 8)

/-- The design word (R13). -/
def designWord (cells : List Bool) : CodeWord := decodeWord ((cells.drop 8).take 8)

/-- The counter word (R13). -/
def counterWord (cells : List Bool) : CodeWord := decodeWord ((cells.drop 16).take 8)

/-- How many of the three words have a status. -/
def wordsWith (cells : List Bool) (st : WordStatus) : Nat :=
  ([kindWord cells, designWord cells, counterWord cells].filter (fun w => w.status == st)).length

/-- The code status of a group (R21). -/
def groupStatus (cells : List Bool) : CodeStatus :=
  if 0 < wordsWith cells .uncorrectable then .uncorrectable
  else if 0 < wordsWith cells .corrected then .corrected
  else .clean

/-! ### Register loops (R61, R71 to R74) -/

/-- The largest magnitude of a history sample and of a filter output. -/
def sampleMax : Int := 4095

/-- The depth of a form (R61). -/
def FilterForm.depth : FilterForm → Nat
  | .odd7 => 7
  | .even8 => 8

/-- The taps of a set, newest sample first (R61). -/
def FilterSet.taps (f : FilterSet) : List Int :=
  match f.form with
  | .odd7 => [f.h0, f.h1, f.h2, f.h3, f.h2, f.h1, f.h0]
  | .even8 => [f.h0, f.h1, f.h2, f.h3, f.h3, f.h2, f.h1, f.h0]

/-- Σ: tap times sample over the taps; samples beyond the depth take no tap (R72). -/
def filterSum (f : FilterSet) (history : List Int) : Int :=
  (List.zipWith (fun t x => t * x) f.taps history).sum

/-- The computation of one output (R72 to R74): the filter output with its clamp, then the deadband,
the correction, and the limit. -/
def computeOutput (cfg : LoopSettings) (set : FilterSet) (history : List Int) : LastOutput :=
  let raw := roundDiv (filterSum set history) 512
  let f := clampInt (-sampleMax) sampleMax raw
  let fclamp := decide (sampleMax < raw.natAbs)
  if f.natAbs ≤ cfg.deadband then
    { f, c := none, fclamp, deadband := true, zero := false, limited := false }
  else
    let c := roundDiv (-f * cfg.gain) 256
    if c = 0 then { f, c := some 0, fclamp, deadband := false, zero := true, limited := false }
    else
      { f, c := some (clampInt (-cfg.maxstep) cfg.maxstep c), fclamp, deadband := false, zero := false,
        limited := decide (cfg.maxstep < c.natAbs) }

/-- The correction a computation issues: none at the deadband or at ZERO (R73, R74). -/
def LastOutput.issued (o : LastOutput) : Option Int := if o.deadband || o.zero then none else o.c

/-- REG_OUT (R65): for some station within N the mark is absent, or its raw error exceeds twice the
tolerance of its loop. -/
def regOut (j : JobSettings) (errors : Vector (Option Int) 7) : Bool :=
  j.reader.places.any fun i =>
    match errors[i] with
    | none => true
    | some e => 2 * (j.loops[i.castSucc]).tolerance < e.natAbs

/-! ### Trim and draw (R82, R85, R90, R91) -/

/-- The steps of a total in 1/128 steps, truncated toward zero, and the residue they leave (R82). -/
def scaleTotal (total : Int) : Int × Int :=
  let steps := total.tdiv 128
  (steps, total - 128 * steps)

/-- The level of a direction line for a pending count that is not 0 (R85). -/
def lineFor (inverted : Bool) (pending : Int) : Bool := if inverted then 0 < pending else pending < 0

/-- The draw command's limits in ppm (R90). -/
def drawMax : Int := 20000

/-- V for a draw command (R90). -/
def drawValue (ppm : Int) : Nat :=
  (roundDiv ((clampInt (-drawMax) drawMax ppm + 20000) * 65535) 40000).toNat

/-- The high time of draw period `k` under V, in 1,024ths of the period (R91). -/
def highTime (v k : Nat) : Nat :=
  let m := v % 64
  v / 64 + if (k * m) / 64 < ((k + 1) * m) / 64 then 1 else 0

/-! ### Stretch (R99) -/

/-- The stretch of a repeat in ppm of its upstream length. -/
def stretchOf (lD lU : Int) : Int := roundDiv ((lD - lU) * 1000000) lU

/-- The largest magnitude of a valid stretch (R99). -/
def stretchMax : Nat := 50000

/-! ### Shade (R122, R123) -/

/-- One calibrated value before limiting: round(raw × g / 4,096) + offset. -/
def calibrated (raw : Int) (gain : Nat) (off : Int) : Int := roundDiv (raw * gain) 4096 + off

/-- A head's OK answer calibrated and limited (R122). -/
def calibrate (h : HeadSettings) (l a b : Int) : Reading :=
  let l' := calibrated l h.gain h.offL
  let a' := calibrated a h.gain h.offA
  let b' := calibrated b h.gain h.offB
  { l := clampInt 0 10000 l', a := clampInt (-12700) 12700 a', b := clampInt (-12700) 12700 b',
    clamped := !(inRangeInt 0 10000 l' && inRangeInt (-12700) 12700 a' && inRangeInt (-12700) 12700 b') }

/-- The largest of a list of integers, from a first one. -/
def maxOf (x : Int) (xs : List Int) : Int := xs.foldl max x

/-- The smallest of a list of integers, from a first one. -/
def minOf (x : Int) (xs : List Int) : Int := xs.foldl min x

/-- The sample of a cycle's OK answers (R123). -/
def combine (sideTolerance : Nat) (rs : List Reading) : Shd :=
  let ls := rs.map (·.l)
  let spread := maxOf (ls.headD 0) ls - minOf (ls.headD 0) ls
  { l := mean ls, a := mean (rs.map (·.a)), b := mean (rs.map (·.b)), heads := rs.length, spread,
    side := (sideTolerance : Int) < spread, clamped := rs.any (·.clamped) }

/-! ### Grading (R153 to R156) -/

/-- The colour difference of two shades (R153). -/
def deltaE (l1 a1 b1 l2 a2 b2 : Int) : Nat :=
  isqrt (((l1 - l2) * (l1 - l2) + (a1 - a2) * (a1 - a2) + (b1 - b2) * (b1 - b2)).toNat)

/-- The samples a roll needs for a shade (R154). -/
def minSamples : Nat := 3

/-- A roll's shade mean and spread, absent with fewer than 3 samples (R154). -/
def rollShade (samples : List Shd) : Option RollShade :=
  if samples.length < minSamples then none
  else
    let l := mean (samples.map (·.l))
    let a := mean (samples.map (·.a))
    let b := mean (samples.map (·.b))
    some { l, a, b, spread := samples.foldl (fun m x => max m (deltaE x.l x.a x.b l a b)) 0 }

/-- REG_OUT counts the record (R155). -/
def Record.defRegOut (r : Record) : Bool := r.reg.any (·.out)

/-- EMB_OUT counts the record (R155). -/
def Record.defEmbOut (r : Record) : Bool := r.emb.any (·.out)

/-- The record is not embossed: no EMB group, or a nip state absent or NOT (R155). -/
def Record.defNotEmbossed (r : Record) : Bool :=
  match r.emb with
  | none => true
  | some e => e.nip != some true

/-- WRONG_REPEAT counts the record (R155). -/
def Record.defWrongRepeat (r : Record) : Bool := r.emb.any (·.wrongRepeat)

/-- The tracking kind counts the record (R155). -/
def Record.defTracking (r : Record) : Bool := r.predicted || r.missed || r.unmatched

/-- SHADE_SIDE counts the record (R155). -/
def Record.defSide (r : Record) : Bool := r.shd.any (·.side)

/-- A remark counts the record (R155). -/
def Record.defRemark (r : Record) : Bool := r.remark != 0

/-- A defect repeat: a record counted in any kind but WRONG_REPEAT (R155). -/
def Record.isDefect (r : Record) : Bool :=
  r.defRegOut || r.defEmbOut || r.defNotEmbossed || r.defTracking || r.defSide || r.defRemark

/-- The counts of R155 over a roll's records. -/
def countDefects (rs : List Record) : Defects :=
  { regOut := rs.countP (·.defRegOut), embOut := rs.countP (·.defEmbOut),
    notEmbossed := rs.countP (·.defNotEmbossed), wrongRepeat := rs.countP (·.defWrongRepeat),
    tracking := rs.countP (·.defTracking), side := rs.countP (·.defSide),
    remark := rs.countP (·.defRemark), repeats := rs.countP (·.isDefect) }

/-- The grade of a roll from its mode, its shade and its counts (R156). -/
def gradeOf (g : GradeSettings) (mode : RollMode) (shade : Option RollShade) (d : Defects) : Grade :=
  match shade with
  | none => .r
  | some x =>
    if mode = .length || d.wrongRepeat != 0 || g.rejectSpread < x.spread || g.bLimit < d.repeats then .r
    else if d.repeats == 0 && x.spread ≤ g.bSpread then .a
    else .b

end Sys2Proof.Machine
end

