-- ==== Sys2Proof/Machine/Trim.lean ====
section
/-! DEFINITION. The Trim Output Unit: merging steps into a pending count, emitting them, discarding
them, and the draw output (R80 to R92). -/

namespace Sys2Proof.Machine

/-- The largest magnitude of a pending count (R80). -/
def pendingMax : Int := 4095

/-- A trim output with another pending count: the direction line is set and the accumulator cleared
when the sign becomes one P did not have, and the accumulator is cleared at 0 (R84, R85). -/
def Trim.setPending (t : Trim) (inverted : Bool) (p : Int) : Trim :=
  if p = 0 then { t with pending := 0, acc := 0 }
  else if t.pending ≠ 0 ∧ (t.pending < 0 ↔ p < 0) then { t with pending := p }
  else { t with pending := p, acc := 0, line := lineFor inverted p }

/-- The steps dropped by a merge: those beyond ±4,095 (R83). -/
def droppedSteps (sum : Int) : Nat := sum.natAbs - 4095

/-- Steps merged into the pending count (R83). -/
def Trim.merge (t : Trim) (inverted : Bool) (steps : Int) : Trim :=
  let sum := t.pending + steps
  let n := droppedSteps sum
  let t' := t.setPending inverted (clampInt (-pendingMax) pendingMax sum)
  if n = 0 then t' else { t' with saturations := bump t'.saturations, dropped := bump t'.dropped n }

/-- One trim output replaced. -/
def setTrim (i : Fin 8) (t : Trim) (s : State) : State :=
  s.setTou { s.tou with trims := s.tou.trims.set i t }

/-- Steps merged into output `i` for a loop's correction, or for a jog (`source` absent); a saturation
raises its TRIM_SAT notice (R83). -/
def mergeSteps (i : Fin 8) (steps : Int) (source : Option (Fin 8)) (s : State) : State :=
  let t := s.tou.trims[i]
  let t' := t.merge s.act.trims[i].inverted steps
  let n := droppedSteps (t.pending + steps)
  let s' := setTrim i t' s
  if n = 0 then s' else raise (.trimSat i n t'.pending source) s'

/-- A loop's correction scaled into steps: the residue is carried and the steps merged (R82). -/
def correctTrim (i : Fin 8) (c : Int) (s : State) : State :=
  let t := s.tou.trims[i]
  let split := scaleTotal (t.residue + c * s.act.trims[i].scale)
  mergeSteps i split.1 (some i) (setTrim i { t with residue := split.2 } s)

/-- The steps not yet emitted discarded (R87). -/
def Trim.discard (t : Trim) : Trim := { t with pending := 0, acc := 0 }

/-- Output `i` discards its pending steps because its loop is set OFF (R87). -/
def discardTrim (i : Fin 8) (s : State) : State := setTrim i s.tou.trims[i].discard s

/-- The accumulator's threshold for one step (R84). -/
def stepThreshold : Nat := 10000

/-- A step is due: steps are pending and the accumulator is at least 10,000 (R84). -/
def Trim.due (t : Trim) : Bool := t.pending != 0 && decide (stepThreshold ≤ t.acc)

/-- One step emitted, when one is due: P moves one toward 0, the accumulator falls by 10,000, and is 0 when
P reaches 0 (R84, R89). An output with no step due stays as it is. -/
def Trim.step (t : Trim) : Trim :=
  if t.due then
    let p := if 0 < t.pending then t.pending - 1 else t.pending + 1
    let acc := if p = 0 then 0 else t.acc - stepThreshold
    if 0 < t.pending then { t with pending := p, acc, forward := t.forward + 1 }
    else { t with pending := p, acc, reverse := t.reverse + 1 }
  else t

/-- So many steps, each emitted when it is due. -/
def Trim.steps : Nat → Trim → Trim
  | 0, t => t
  | n + 1, t => Trim.steps n t.step

/-- The steps of the unit that ends: those that are due and that no TRIM_STEP has emitted (R84, log entry
1). -/
def Trim.flush (t : Trim) : Trim := Trim.steps (t.acc / stepThreshold) t

/-- One unit of the time base: what fell due in the unit before is emitted, and the accumulator of an output
still emitting rises by its step rate (R84). -/
def Trim.tick (t : Trim) (rate : Nat) : Trim :=
  let t := t.flush
  if t.pending = 0 then t else { t with acc := t.acc + rate }

/-- A draw command in ppm (R90). -/
def Draw.take (d : Draw) (ppm : Int) : Draw :=
  { d with v := drawValue ppm, command := ppm,
           clamps := if inRangeInt (-drawMax) drawMax ppm then d.clamps else bump d.clamps }

/-- The Emboss Controller sends a draw command (R100). -/
def sendDraw (ppm : Int) (s : State) : State := s.setTou { s.tou with draw := s.tou.draw.take ppm }

/-- The end of a draw period: the counter advances, and the next period's high time is set from the
present V (R91, R92). -/
def Draw.period (d : Draw) : Draw :=
  let k := (d.k + 1) % 64
  { d with k, high := highTime d.v k }

/-- The midscale value of the draw (R90). -/
def drawMidscale : Nat := 32768

/-- The trim outputs and the draw at ARM: saturations, dropped steps and draw clamps 0, the rest kept
(R80, R90). -/
def Tou.arm (t : Tou) : Tou :=
  { trims := Vector.ofFn fun i => { t.trims[i] with saturations := 0, dropped := 0 }
    draw := { t.draw with clamps := 0 } }

/-- The trim outputs and the draw at JOB ABORT: P, r and A 0, the draw at midscale (R80, R87, R90). -/
def Tou.abort (t : Tou) : Tou :=
  { trims := Vector.ofFn fun i => { t.trims[i].discard with residue := 0 }
    draw := { t.draw with v := drawMidscale, command := 0 } }

end Sys2Proof.Machine
end

