-- ==== Sys2Proof/Machine/Loops.lean ====
section
/-! DEFINITION. The Register Loop Unit: what a loop makes of a sample or a miss, the output it computes,
the records handed to it, and its orders (R59 to R79). -/

namespace Sys2Proof.Machine

/-- What a record or a fiducial gives a loop (R63, R77). -/
inductive LoopInput where
  | sample (e : Int)
  | miss
  | nothing
deriving DecidableEq, Repr

/-- A loop after an input: the loop, the change of state its LOOP notice reports, and the correction it
issues. -/
structure LoopResult where
  loop : Loop
  change : Option (LoopState × LoopCause)
  correction : Option Int

/-- The result that changes the loop alone. -/
def LoopResult.quiet (l : Loop) : LoopResult := { loop := l, change := none, correction := none }

/-- History cleared: the list empty and the last good sample absent (R62). -/
def Loop.clear (l : Loop) : Loop := { l with history := [], lastGood := none }

/-- A sample joins the history at the newest end; the oldest of 8 leaves (R62). -/
def Loop.enter (l : Loop) (x : Int) : Loop := { l with history := (x :: l.history).take 8 }

/-- A loop is full when its history holds the depth of its filter set's form (R67). -/
def Loop.full (l : Loop) (set : FilterSet) : Bool := set.form.depth ≤ l.history.length

/-- An output computed from a full history in TRACK: recorded, and issued unless the deadband or ZERO
ends it; issuing enters SETTLE (R68, R72 to R74). -/
def Loop.output (cfg : LoopSettings) (set : FilterSet) (l : Loop) : LoopResult :=
  let o := computeOutput cfg set l.history
  let counts := { l.counts with filterClamps := if o.fclamp then bump l.counts.filterClamps
                                                else l.counts.filterClamps }
  match o.issued with
  | none => .quiet { l with state := .track, last := some o, counts }
  | some c =>
    { loop := { l with
        state := .settle, settle := cfg.settle, last := some o
        counts := { counts with corrections := bump counts.corrections,
                                limited := if o.limited then bump counts.limited else counts.limited } }
      change := none, correction := some c }

/-- After an entry into the history (R67). -/
def Loop.afterEntry (cfg : LoopSettings) (set : FilterSet) (l : Loop) : LoopResult :=
  match l.state with
  | .fill => if l.full set then l.output cfg set else .quiet l
  | .track => if l.full set then l.output cfg set else .quiet { l with state := .fill }
  | _ => .quiet l

/-- The settle counter lowered by one; at 0 the loop enters FILL with its history cleared (R68). -/
def Loop.settleDown (l : Loop) : Loop :=
  if l.settle ≤ 1 then { l.clear with settle := 0, state := .fill } else { l with settle := l.settle - 1 }

/-- Entry to COAST (R69). -/
def Loop.coast (l : Loop) (cause : LoopCause) : LoopResult :=
  { loop := { l with state := .coast, settle := 0, counts := { l.counts with coasts := bump l.counts.coasts } }
    change := some (.coast, cause), correction := none }

/-- A good sample enters the history, clamped, as the last good sample (R66, R71). -/
def Loop.enterGood (l : Loop) (e : Int) : Loop :=
  let x := clampInt (-sampleMax) sampleMax e
  { l.enter x with
    lastGood := some x
    counts := { l.counts with clamps := if x = e then l.counts.clamps else bump l.counts.clamps } }

/-- A good sample, one that has passed the capture check (R66). -/
def Loop.good (cfg : LoopSettings) (set : FilterSet) (l : Loop) (e : Int) : LoopResult :=
  let l := { l with missRun := 0, counts := { l.counts with good := bump l.counts.good } }
  match l.state with
  | .off => .quiet l
  | .fill | .track | .hold => (l.enterGood e).afterEntry cfg set
  | .settle => .quiet l.settleDown
  | .coast =>
    { loop := { l.clear.enterGood e with state := .fill }
      change := some (.fill, .sample), correction := none }

/-- The largest consecutive miss count (R62). -/
def missMax : Nat := 255

/-- A miss (R66). -/
def Loop.miss (cfg : LoopSettings) (set : FilterSet) (l : Loop) : LoopResult :=
  let l := { l with missRun := min (l.missRun + 1) missMax
                    counts := { l.counts with misses := bump l.counts.misses } }
  let limit := decide (cfg.coastLimit ≤ l.missRun)
  match l.state with
  | .off | .coast => .quiet l
  | .hold => match l.lastGood with
    | none => .quiet l
    | some x => .quiet (l.enter x)
  | .settle => if limit then l.coast .misses else .quiet l.settleDown
  | .fill | .track =>
    if limit then l.coast .misses
    else match l.lastGood with
      | none => .quiet l
      | some x => (l.enter x).afterEntry cfg set

/-- A loop takes what a record or a fiducial gives it; a sample beyond twice the capture is a miss
(R66, R71). A loop that is OFF takes nothing. -/
def Loop.take (cfg : LoopSettings) (set : FilterSet) (capture : Nat) (l : Loop) (x : LoopInput) : LoopResult :=
  if l.state = .off then .quiet l
  else match x with
    | .nothing => .quiet l
    | .miss => l.miss cfg set
    | .sample e => if 2 * capture < e.natAbs then l.miss cfg set else l.good cfg set e

/-- A filter set by its number; a number beyond 3, which no order can set, names set 3. -/
def JobSettings.filter (j : JobSettings) (n : Nat) : FilterSet :=
  if h : n < 4 then j.filters[n] else j.filters[3]

/-- The station place a loop serves; L8 serves none. -/
def loopStation (i : Fin 8) : Option (Fin 7) := if h : i.val < 7 then some ⟨i.val, h⟩ else none

/-- A loop exists: its station is within N, or it is L8 (R59). -/
def JobSettings.loopExists (j : JobSettings) (i : Fin 8) : Bool :=
  match loopStation i with
  | none => true
  | some p => j.reader.hasStation p

/-- The capture of a loop: capture_n for L1 to L7, its own setting for L8 (R71). -/
def JobSettings.loopCapture (j : JobSettings) (i : Fin 8) : Nat :=
  match loopStation i with
  | none => j.loops[i].tolerance
  | some p => j.reader.capture[p]

/-- One loop replaced. -/
def setLoop (i : Fin 8) (l : Loop) (s : State) : State := s.setRlu { loops := s.rlu.loops.set i l }

/-- A change of state into or out of COAST reported (R69). -/
def loopNotice (i : Fin 8) (old : LoopState) (index : Nat) : Option (LoopState × LoopCause) → State → State
  | none, s => s
  | some (new, cause), s => raise (.loop i old new cause index) s

/-- Loop `i` takes an input on account of the record `index`: its LOOP notice is raised and a correction
issued goes to its trim output (R66, R69, R74). -/
def takeInput (i : Fin 8) (x : LoopInput) (index : Nat) (s : State) : State :=
  let l := s.rlu.loops[i]
  let r := l.take s.act.loops[i] (s.act.filter s.act.loops[i].filterSet) (s.act.loopCapture i) x
  let s := loopNotice i l.state index r.change (setLoop i r.loop s)
  match r.correction with
  | none => s
  | some c => correctTrim i c s

/-- Loop `i` issues a correction on this input: it enters the correction mask of the record (R74). -/
def issues (i : Fin 8) (x : LoopInput) (s : State) : Bool :=
  (s.rlu.loops[i].take s.act.loops[i] (s.act.filter s.act.loops[i].filterSet)
    (s.act.loopCapture i) x).correction.isSome

/-- The raw error of a station's mark against the key (R64). -/
def rawError (nominal : Nat) (key mark : Mark) : Int :=
  halfDiff (centreSum mark.lead mark.trail) (centreSum key.lead key.trail) - 2 * nominal

/-- The raw errors of a seen REPEAT or JOB_MARK record, absent for an absent mark and beyond N (R64). -/
def rawErrors (j : JobSettings) (key : Mark) (marks : Vector (Option Mark) 7) : Vector (Option Int) 7 :=
  Vector.ofFn fun i =>
    if j.reader.hasStation i then marks[i].map (rawError j.reader.nominal[i] key) else none

/-- What a record gives the loop of a station (R63). `errors` are the raw errors of a seen REPEAT or
JOB_MARK record, and absent for the records handed without marks. -/
def recordInput (r : Record) (errors : Option (Vector (Option Int) 7)) (p : Fin 7) : LoopInput :=
  if r.splice.isSome || r.unmatched then .nothing
  else match errors with
    | none => .miss
    | some es => match es[p] with
      | none => .miss
      | some e => .sample e

/-- Loops L1 to L7 take a record, each raising its notices in its turn, from L1 on (log entry 13); the second
component collects the correction mask. -/
def loopsTake (r : Record) (errors : Option (Vector (Option Int) 7)) :
    List (Fin 7) → State × Vector Bool 7 → State × Vector Bool 7
  | [], acc => acc
  | p :: ps, (s, mask) =>
    let x := recordInput r errors p
    let i := p.castSucc
    loopsTake r errors ps (takeInput i x r.index s, mask.set p (issues i x s))

/-- An empty correction mask. -/
def noMask : Vector Bool 7 := #v[false, false, false, false, false, false, false]

/-- The RLU takes a record the tracker hands it: the loops that exist take it, and a seen REPEAT or
JOB_MARK record gets its REG group in one write (R63 to R65). -/
def rluTake (r : Record) (marks : Option (Mark × Vector (Option Mark) 7)) (s : State) : State :=
  let errors := marks.map fun m => rawErrors s.act m.1 m.2
  let out := loopsTake r errors s.act.reader.places (s, noMask)
  match errors with
  | none => out.1
  | some es =>
    writePart .reg r.index
      (fun x => { x with reg := some { errors := es, mask := out.2, out := regOut s.act es } }) out.1

/-- A loop that LOST puts in COAST (R70). -/
def Loop.losesTrack (l : Loop) : Bool := l.state == .fill || l.state == .track || l.state == .settle

/-- Loop `i` takes the tracker's report of LOST (R70). -/
def loopLost (i : Fin 8) (s : State) : State :=
  let l := s.rlu.loops[i]
  if l.losesTrack then
    let r := l.coast .lost
    loopNotice i l.state s.rtk.nextIndex r.change (setLoop i r.loop s)
  else s

/-- Every loop takes the report of LOST (R70); the LOOP notices of one event come in the order L1 to L8 (log
entry 13). -/
def rluLost (s : State) : State := places8.foldl (fun s i => loopLost i s) s

/-- The LOOP notice of a loop that an order takes out of COAST: R69 raises it and names neither its cause
nor its index, which are free (log entry 2). -/
def leaveCoastNotice (i : Fin 8) (old new : LoopState) (s : State) : State :=
  if old = .coast then
    raise (.loop i old new (.unstated (Config.freeCause s.free)) (Config.freeIndex s.free).toNat)
      (s.setFree (s.free + 1))
  else s

/-- A loop set OFF, or ON from OFF: history cleared, miss count and settle counter 0 (R75). -/
def Loop.restart (l : Loop) (st : LoopState) : Loop := { l.clear with state := st, missRun := 0, settle := 0 }

/-- A loop set OFF, with its output's pending steps discarded (R75, R87). OFF from OFF changes nothing: steps jogged
onto the output of a loop that is OFF stay pending, where R88 can be read to discard them (log entry 39). -/
def setLoopOff (i : Fin 8) (s : State) : State :=
  let l := s.rlu.loops[i]
  if l.state = .off then s
  else discardTrim i (leaveCoastNotice i l.state .off (setLoop i (l.restart .off) s))

/-- Every loop that does not exist under the active settings is set OFF (R59), in the order L1 to L8 (log
entry 13); one that is OFF keeps the steps jogged onto its output (log entry 39). -/
def dropLoops (s : State) : State :=
  places8.foldl (fun s i => if s.act.loopExists i then s else setLoopOff i s) s

/-- Every loop set OFF at JOB ABORT (R62). -/
def loopsAbort (s : State) : State := places8.foldl (fun s i => setLoopOff i s) s

/-- A loop at ARM: OFF and HOLD stay, any other state becomes FILL; everything it holds is reset (R62). -/
def Loop.arm (l : Loop) : Loop :=
  { Loop.reset with state := if l.state = .off ∨ l.state = .hold then l.state else .fill }

/-- Loop `i` at ARM (R62). -/
def loopArm (i : Fin 8) (s : State) : State :=
  let l := s.rlu.loops[i]
  leaveCoastNotice i l.state l.arm.state (setLoop i l.arm s)

/-- Every loop at ARM (R62). -/
def loopsArm (s : State) : State := places8.foldl (fun s i => loopArm i s) s

end Sys2Proof.Machine
end

