-- ==== Sys2Proof/Machine/Grading.lean ====
section
/-! DEFINITION. The Grading Unit: a roll's shade at the cut, its grade and its batch at the doff, and the
shade batch table (R151 to R162). -/

namespace Sys2Proof.Machine

/-- The eight entries of the shade batch table by number. -/
def entryList : List (Fin 8) := [0, 1, 2, 3, 4, 5, 6, 7]

/-- The batch is OPEN. -/
def Batch.isOpen (b : Batch) : Bool := b.closed.isNone

/-- The entry holds an OPEN batch. -/
def openEntry : Option Batch → Bool
  | some b => b.isOpen
  | none => false

/-- One entry of the table replaced. -/
def Gru.setEntry (g : Gru) (e : Fin 8) (b : Option Batch) : Gru := { g with table := g.table.set e b }

/-- The entry that holds a batch number, or none (R161). -/
def Gru.entryOf (g : Gru) (number : Nat) : Option (Fin 8) :=
  entryList.find? fun e => g.table[e].any (fun b => b.number == number)

/-- The age of a stamp (R152). -/
def Gru.age (g : Gru) (stamp : BitVec 32) : Nat := (g.use - stamp).toNat

/-- The roll's shade taken from its records as they stand after the closure (R154). -/
def shadeRoll (i : Fin 12) (s : State) : State :=
  match s.wnc.slots[i].roll? with
  | none => s
  | some r =>
    let samples := (s.rst.ofRoll i r.number).filterMap (·.shd)
    s.setWnc (s.wnc.changeRoll i fun r => { r with samples := samples.length, shade := rollShade samples })

/-! ### Closing batches (R160) -/

/-- The counts of a closure (R162): LRU and HOST closures are counted. -/
def GruCounts.closure (c : GruCounts) : CloseCause → GruCounts
  | .lru => { c with lru := bump c.lru }
  | .host => { c with host := bump c.host }
  | .job => c

/-- A batch closed: the entry becomes CLOSED with a new stamp and the cause, and BATCH_CLOSED is raised.
An entry that is not OPEN is left as it stands. -/
def closeBatch (e : Fin 8) (cause : CloseCause) (s : State) : State :=
  match s.gru.table[e] with
  | none => s
  | some b =>
    if b.isOpen then
      let g := s.gru
      let stamp := g.use + 1
      raise (.batchClosed b.number e cause b.rolls b.lastRoll)
        (s.setGru { g.setEntry e (some { b with closed := some (stamp, cause) }) with
                    use := stamp, counts := g.counts.closure cause })
    else s

/-- Every OPEN batch closed with cause JOB, in entry order (R160). -/
def closeJobBatches (s : State) : State := entryList.foldl (fun s e => closeBatch e .job s) s

/-! ### Batch choice (R157, R158) -/

/-- The better of two candidates: the smaller ΔE, then the lower batch number. -/
def betterBatch (x y : Fin 8 × Nat × Nat) : Fin 8 × Nat × Nat :=
  if y.2.1 < x.2.1 ∨ (y.2.1 = x.2.1 ∧ y.2.2 < x.2.2) then y else x

/-- The OPEN batch nearest a shade, with its ΔE and number: smallest ΔE, lower number on a tie (R157). -/
def Gru.nearest (g : Gru) (x : RollShade) : Option (Fin 8 × Nat × Nat) :=
  let found := entryList.filterMap fun e => match g.table[e] with
    | none => none
    | some b => if b.isOpen then some (e, deltaE x.l x.a x.b b.l b.a b.b, b.number) else none
  match found with
  | [] => none
  | c :: cs => some (cs.foldl betterBatch c)

/-- The greatest total length a batch holds (R152). -/
def lengthMax : Nat := 2 ^ 48 - 1

/-- What a roll adds to the total length of a batch: its length (R157, R158). A roll whose cut position lies before
its start position adds 0: the rules give a total no negative part, and say nothing of such a roll (DESIGN CHOICE,
log entry 41). -/
def Roll.addedLength (r : Roll) : Nat := (r.length.getD 0).toNat

/-- The roll joins an OPEN batch (R157). -/
def Batch.join (b : Batch) (r : Roll) (stamp : BitVec 32) : Batch :=
  { b with rolls := bump b.rolls
           length := min (b.length + r.addedLength) lengthMax
           lastRoll := r.number
           lastUse := stamp }

/-- The entry of greatest age among those a stamp is given for; the lowest entry on a tie. -/
def Gru.oldestBy (g : Gru) (stamp : Batch → Option (BitVec 32)) : Option (Fin 8) :=
  let found := entryList.filterMap fun e => match g.table[e] with
    | none => none
    | some b => (stamp b).map fun t => (e, g.age t)
  match found with
  | [] => none
  | c :: cs => some (cs.foldl (fun x y => if x.2 < y.2 then y else x) c).1

/-- The least recently used OPEN batch (R158). -/
def Gru.lruOpen (g : Gru) : Option (Fin 8) := g.oldestBy fun b => if b.isOpen then some b.lastUse else none

/-- The entry a new batch takes: the lowest EMPTY one, otherwise the CLOSED one of greatest closing age
(R158). -/
def Gru.freeEntry (g : Gru) : Option (Fin 8) :=
  match entryList.find? (fun e => g.table[e].isNone) with
  | some e => some e
  | none => g.oldestBy fun b => b.closed.map (·.1)

/-- An OPEN batch holds the number. -/
def Gru.numberOpen (g : Gru) (n : Nat) : Bool :=
  entryList.any fun e => g.table[e].any (fun b => b.isOpen && b.number == n)

/-- The number after a batch number: 1 after 65,535 (R158). -/
def nextNumber (n : Nat) : Nat := if 65535 ≤ n then 1 else n + 1

/-- The first number from `n` on that no OPEN batch holds, within so many tries (R158). -/
def Gru.tryNumber (g : Gru) : Nat → Nat → Nat
  | 0, n => n
  | k + 1, n => if g.numberOpen n then g.tryNumber k (nextNumber n) else n

/-- The CLOSED entries that hold a number made EMPTY, but for the entry kept (R158). -/
def Gru.dropNumber (g : Gru) (keep : Fin 8) (n : Nat) : Gru :=
  { g with table := Vector.ofFn fun e =>
      if e ≠ keep ∧ g.table[e].any (fun b => !b.isOpen && b.number == n) then none else g.table[e] }

/-- A new batch opened for a roll (R158). -/
def openBatch (i : Fin 12) (r : Roll) (x : RollShade) (s : State) : State :=
  let s := if entryList.all (fun e => openEntry s.gru.table[e]) then
      match s.gru.lruOpen with
      | none => s
      | some e => closeBatch e .lru s
    else s
  match s.gru.freeEntry with
  | none => s
  | some e =>
    let g := s.gru
    let n := g.tryNumber 9 g.nextBatch
    let stamp := g.use + 1
    let b : Batch := { number := n, l := x.l, a := x.a, b := x.b, rolls := 1
                       length := min r.addedLength lengthMax
                       firstRoll := r.number, lastRoll := r.number, lastUse := stamp, closed := none }
    let g' := { (g.dropNumber e n).setEntry e (some b) with
                nextBatch := nextNumber n, use := stamp
                counts := { g.counts with opened := bump g.counts.opened } }
    let s := (s.setGru g').setWnc (s.wnc.changeRoll i fun r => { r with batch := some ⟨n, 0⟩ })
    raise (.batchOpen n e x.l x.a x.b r.number) s

/-- The roll placed in a batch: the nearest OPEN one within the tolerance, otherwise a new one (R157). -/
def placeBatch (i : Fin 12) (r : Roll) (x : RollShade) (s : State) : State :=
  match s.gru.nearest x with
  | none => openBatch i r x s
  | some (e, dE, n) =>
    if dE ≤ s.act.grade.batchTolerance then
      let g := s.gru
      let stamp := g.use + 1
      (s.setGru { g.setEntry e (g.table[e].map (·.join r stamp)) with use := stamp }).setWnc
        (s.wnc.changeRoll i fun r => { r with batch := some ⟨n, dE⟩ })
    else openBatch i r x s

/-- The grade counts (R159, R162). -/
def GruCounts.graded (c : GruCounts) (g : Grade) (unknown : Bool) : GruCounts :=
  let c := if unknown then { c with unknown := bump c.unknown } else c
  match g with
  | .a => { c with gradedA := bump c.gradedA }
  | .b => { c with gradedB := bump c.gradedB }
  | .r => { c with gradedR := bump c.gradedR }

/-- The GRU's work at the doff of slot `i`, in the order of R159: the counts, the grade, the batch, the
GRADED notice. -/
def gradeRoll (i : Fin 12) (s : State) : State :=
  match s.wnc.slots[i].roll? with
  | none => s
  | some r =>
    let d := countDefects (s.rst.ofRoll i r.number)
    let g := gradeOf s.act.grade r.mode r.shade d
    let s := s.setWnc (s.wnc.changeRoll i fun r => { r with defects := d, grade := some g, batch := none })
    let s := match g, r.shade with
      | .r, _ => s
      | _, none => s
      | _, some x => placeBatch i r x s
    let s := s.setGru { s.gru with counts := s.gru.counts.graded g r.shade.isNone }
    let batch := (s.wnc.slots[i].roll?).bind (·.batch)
    raise (.graded i r.number g batch d.repeats (r.shade.map (·.spread))) s

/-- The shade batch table and the numbering at JOB CLEAR (R152). -/
def Gru.clear (g : Gru) (first : Nat) : Gru := { g with table := emptyBatches, nextBatch := first, use := 0 }

end Sys2Proof.Machine
end

