-- ==== Sys2Proof/Machine/Labels.lean ====
section
/-! DEFINITION. The Label Unit: the label queue, composing and sending labels, the printer's replies,
and the report of a label's outcome to the Winder Controller (R146, R163 to R171). -/

namespace Sys2Proof.Machine

/-! ### Composing (R166) -/

/-- A text with its trailing spaces removed. -/
def trimSpaces (bs : List Byte) : List Byte := (bs.reverse.dropWhile (· == 0x20)).reverse

/-- The letter of a grade. -/
def gradeLetter : Grade → Byte
  | .a => 0x41
  | .b => 0x42
  | .r => 0x52

/-- A length in counts as a whole number of units, `perMetre` of them to the metre, rounded (R166). A negative one,
for which R166 has no text, as its numbers carry no sign, gives 0 (DESIGN CHOICE, log entry 41). -/
def metric (counts : Int) (perMetre countsPerMetre : Nat) : Nat :=
  (roundDiv (counts * perMetre) countsPerMetre).toNat

/-- The text of one field (R166). -/
def fieldText (j : JobSettings) (r : Roll) : FieldCode → List Byte
  | .roll => decimal r.number
  | .design => trimSpaces j.label.designName.toList
  | .dnum => decimal r.design.toNat
  | .batch => match r.batch with
    | none => [0x52]
    | some b => decimal b.number
  | .grade => match r.grade with
    | none => []
    | some g => [gradeLetter g]
  | .len => decimal (metric (r.length.getD 0) 100 j.countsPerMetre)
  | .reps => decimal r.count
  | .match_ => decimal (metric r.matchOffset 1000 j.countsPerMetre)
  | .short => if r.short then [0x53] else []
  | .defects => decimal r.defects.repeats

/-- Fields with one ';' between each and the next. -/
def joinFields : List (List Byte) → List Byte
  | [] => []
  | [x] => x
  | x :: y :: rest => x ++ 0x3B :: joinFields (y :: rest)

/-- A template by its number; a number beyond 3, which no order can set, names template 3. -/
def JobSettings.template (j : JobSettings) (n : Nat) : List FieldCode :=
  if h : n < 4 then j.templates[n] else j.templates[3]

/-- The template of a roll: the reject template for grade R, the normal one otherwise (R166). -/
def rollTemplate (j : JobSettings) (r : Roll) : List FieldCode :=
  j.template (if r.grade = some .r then j.label.rejectTemplate else j.label.normalTemplate)

/-- The label record of a roll: its fields and one CR (R166). -/
def composeLabel (j : JobSettings) (r : Roll) : List Byte :=
  joinFields ((rollTemplate j r).map (fieldText j r)) ++ [0x0D]

/-! ### Sending (R167) -/

/-- A slot's label status written. -/
def setLabel (i : Fin 12) (st : LabelStatus) (s : State) : State :=
  s.setWnc (s.wnc.changeRoll i fun r => { r with label := st })

/-- The roll number in a slot; 0 for a FREE slot. -/
def Wnc.numberIn (w : Wnc) (i : Fin 12) : Nat := (w.slots[i].roll?.map (·.number)).getD 0

/-- The head of the queue is sent (R167): its record is composed when none is held, its status becomes
SENT, the labeller enters AWAIT, the LABEL notice carries `event`, and the record's bytes follow
those still being transmitted. -/
def sendHead (event : LabelEvent) (s : State) : State :=
  match s.lbu.queue with
  | [] => s
  | i :: _ =>
    match s.wnc.slots[i].roll? with
    | none => s
    | some r =>
      let bytes := s.lbu.composed.getD (composeLabel s.act r)
      let l := s.lbu
      let s := setLabel i .sent s
      let s := s.setLbu { l with
        state := .await, composed := some bytes, gotF := false
        sending := l.sending ++ [⟨bytes, true⟩]
        counts := { l.counts with sent := bump l.counts.sent } }
      raise (.label i r.number event) s

/-- In IDLE with a slot queued, the head is sent (R167). -/
def sendIfIdle (s : State) : State :=
  if s.lbu.state = .idle then sendHead .sent s else s

/-- A slot joins the queue at the end with status QUEUED (R164). -/
def joinQueue (i : Fin 12) (s : State) : State :=
  let s := setLabel i .queued s
  sendIfIdle (s.setLbu { s.lbu with queue := s.lbu.queue ++ [i] })

/-! ### Replies (R168, R169) -/

/-- A label's outcome reported to the WNC (R146): the slot in LABEL_PENDING with that roll number becomes
LABELLED with that status, and the store frees the roll's records. Any other report is ignored. -/
def labelReport (i : Fin 12) (number : Nat) (st : LabelStatus) (s : State) : State :=
  match s.wnc.slots[i] with
  | .used .labelPending r =>
    if r.number = number then
      (s.setWnc (s.wnc.setSlot i (.used .labelled { r with label := st }))).setRst
        (s.rst.freeRoll i number).1
    else s
  | _ => s

/-- No record in transmission starts the reply timer at its CR any more (R168). -/
def Lbu.mute (l : Lbu) : Lbu := { l with sending := l.sending.map fun x => { x with startsTimer := false } }

/-- The head leaves the queue with an outcome: the report, the LABEL notice, and IDLE, where the next
head is sent (R168, R169). -/
def finishHead (st : LabelStatus) (event : LabelEvent) (s : State) : State :=
  match s.lbu.queue with
  | [] => s
  | i :: rest =>
    let number := s.wnc.numberIn i
    let s := labelReport i number st s
    let l := s.lbu.mute
    let s := s.setLbu { l with state := .idle, queue := rest, composed := none, gotF := false
                               timer := l.timer.stop }
    sendIfIdle (raise (.label i number event) s)

/-- The head's label in fault: its status, FAULT_HOLD and the LABEL notice (R168). -/
def faultHead (code : FaultCode) (s : State) : State :=
  match s.lbu.queue with
  | [] => s
  | i :: _ =>
    let s := setLabel i (.fault code) s
    let l := s.lbu.mute
    let s := s.setLbu { l with state := .faultHold, gotF := false, timer := l.timer.stop }
    raise (.label i (s.wnc.numberIn i) (.fault code)) s

/-- The digit an ASCII byte stands for. -/
def asciiDigit (b : Byte) : Option (Fin 10) :=
  if h : 0x30 ≤ b.toNat ∧ b.toNat ≤ 0x39 then some ⟨b.toNat - 0x30, by omega⟩ else none

/-- The LBU with its counts changed. -/
def Lbu.count (l : Lbu) (f : LbuCounts → LbuCounts) : Lbu := { l with counts := f l.counts }

/-- The character A. -/
def replyA : Byte := 0x41

/-- The character F. -/
def replyF : Byte := 0x46

/-- A byte received in AWAIT (R168). -/
def awaitByte (b : Byte) (s : State) : State :=
  if s.lbu.gotF then
    match asciiDigit b with
    | some d =>
      let s := faultHead (.digit d) s
      s.setLbu (s.lbu.count fun c => { c with faults := bump c.faults })
    | none => s.setLbu ({ s.lbu with gotF := false }.count fun c => { c with bad := bump c.bad })
  else if b = replyA then
    finishHead .confirmed .confirmed
      (s.setLbu (s.lbu.count fun c => { c with confirmed := bump c.confirmed }))
  else if b = replyF then s.setLbu { s.lbu with gotF := true }
  else s.setLbu (s.lbu.count fun c => { c with bad := bump c.bad })

/-- A byte received in IDLE or FAULT_HOLD: there is no label in flight (R168). -/
def strayReply (b : Byte) (s : State) : State :=
  if b = replyA ∨ b = replyF then s.setLbu (s.lbu.count fun c => { c with ignored := bump c.ignored })
  else s.setLbu (s.lbu.count fun c => { c with bad := bump c.bad })

/-- A byte received on the labeller line (R168). -/
def labellerByte (b : Byte) (s : State) : State :=
  if s.lbu.state = .await then awaitByte b s else strayReply b s

/-- The CR of the record on the line has been transmitted: the reply timer starts when this record still
awaits its reply (R167). -/
def labelCr (s : State) : State :=
  match s.lbu.sending with
  | [] => s
  | x :: rest =>
    let l := { s.lbu with sending := rest }
    if x.startsTimer && l.state == .await then
      s.setLbu { l with timer := l.timer.start s.act.label.replyTime }
    else s.setLbu l

/-- Expiry of the reply timer: in AWAIT the label times out (R168). -/
def replyExpiry (s : State) : State :=
  if s.lbu.timer.due then
    let s := s.setLbu { s.lbu with timer := s.lbu.timer.expire }
    if s.lbu.state = .await then
      let s := faultHead .timeout s
      s.setLbu (s.lbu.count fun c => { c with timeouts := bump c.timeouts })
    else s
  else s

/-- The LBU at JOB ABORT and JOB CLEAR (R170): IDLE, the queue empty, no record held, the timer stopped; a
label being transmitted runs to its CR. R170 discards the record held and does not say what becomes of a
record whose bytes still wait behind an earlier record's CR (R167): the model sends it whole too (DESIGN
CHOICE, log entry 21). -/
def Lbu.abort (l : Lbu) : Lbu :=
  { l.mute with state := .idle, queue := [], composed := none, gotF := false, timer := l.timer.stop }

end Sys2Proof.Machine
end

