-- ==== Sys2Proof/Machine/Winder.lean ====
section
/-! DEFINITION. The Winder Controller: cut-start positions, taking records at the knife, start cuts, roll
starts, planning, firing and deferring cuts, LENGTH mode, and the end of a job (R127 to R150).

What the WNC does at a position is written as a list of small steps, `wncStep`: each answers the
state after the one thing that is due first, or none when nothing is due. `wncRun` takes them one
after another. -/

namespace Sys2Proof.Machine

/-! ### What the winder looks up -/

/-- The record has been taken or is held for the next roll. -/
def State.isTaken (s : State) (r : Record) : Bool := r.wnd.isSome || s.wnc.held.contains r.index

/-- The oldest record not yet taken whose index is at least `i` (R132, R133). -/
def State.untakenFrom (s : State) (i : Nat) : Option Record :=
  s.rst.records.find? fun r => i ≤ r.index && !s.isTaken r

/-- A record's cut-start position: the one the WNC holds, or the one written in its WND group (R131). -/
def State.cutStart (s : State) (r : Record) : Option Pos :=
  match s.wnc.cutStarts.find? (fun c => c.index == r.index) with
  | some c => some c.pos
  | none => r.wnd.map (·.cutStart)

/-- A closing record is FORCED when it carries SPLICE or JOB_MARK (R135). -/
def Record.forces (r : Record) : Bool := r.splice.isSome || r.jobMark

/-- The mean repeat: the mean of the length history when it holds 8 values, otherwise the nominal repeat
(R131). -/
def State.meanRepeat (s : State) : Int :=
  if 8 ≤ s.wnc.lengths.length then mean s.wnc.lengths else s.act.track.nominalRepeat

/-- The lead: round(v × t_k / 100), 0 for a speed at or below 0 (R136). -/
def State.lead (s : State) : Int :=
  if s.epu.d.speed ≤ 0 then 0 else roundDiv (s.epu.d.speed * s.act.winder.knifeTime) 100

/-- The slot a new roll would take: the lowest FREE one, otherwise the LABELLED one of lowest roll number;
none when there is neither, or when the roll numbers are used up (R129). -/
def State.allocatable (s : State) : Option (Fin 12) :=
  if 4294967295 < s.wnc.nextRoll then none
  else match slotList.find? (fun i => s.wnc.slots[i] == .free) with
    | some i => some i
    | none =>
      let labelled := slotList.filterMap fun i => match s.wnc.slots[i] with
        | .used .labelled r => some (i, r.number)
        | _ => none
      match labelled with
      | [] => none
      | c :: cs => some (cs.foldl (fun x y => if y.2 < x.2 then y else x) c).1

/-- The winding roll with its slot. -/
def State.windingRoll (s : State) : Option (Fin 12 × Roll) :=
  match s.wnc.winding with
  | none => none
  | some i => s.wnc.slots[i].roll?.map fun r => (i, r)

/-- The records of the store after the one with an index, each with its distance from it. -/
def Rst.after (t : Rst) (first : Nat) : List (Nat × Record) :=
  ((t.records.dropWhile (fun r => r.index != first)).tail).zipIdx.map fun p => (p.2 + 1, p.1)

/-- The closing record of a roll, when the store holds it (R135, R142): after a deferral the next record
from an index on; otherwise the first that carries SPLICE or JOB_MARK or, in PATTERN mode, stands
n_t records after the roll's first. -/
def State.closingOf (s : State) (roll : Roll) : Option Record :=
  match s.wnc.close with
  | .next i => s.rst.fromIndex i
  | .seek i =>
    ((s.rst.after roll.firstIndex).find? fun p =>
      i ≤ p.2.index && (p.2.forces || (roll.mode == .pattern && p.1 == roll.target))).map (·.2)

/-- The final position of a record: its cut start plus its L_D, or plus the mean repeat when its L_D is
absent (R147). -/
def State.finalPos (s : State) (r : Record) : Option Pos :=
  (s.cutStart r).map fun p => posShift p ((r.emb.bind (·.lD)).getD s.meanRepeat)

/-! ### Stop request (R143) -/

/-- The stop request cleared: a STOP notice when it was set. -/
def clearStop (s : State) : State :=
  if s.wnc.stopOn then raise .stopOff (s.setWnc { s.wnc with stopOn := false }) else s

/-- The stop request set when a deferral passes the maximum overlength. -/
def checkStop (roll : Option Nat) (extra : Nat) (s : State) : State :=
  if s.act.winder.maxOverlength < extra ∧ ¬ s.wnc.stopOn then
    raise (.stopOn roll extra) (s.setWnc { s.wnc with stopOn := true })
  else s

/-! ### Taking a record (R131, R132) -/

/-- The length history with one more value; the oldest of 8 leaves (R131). -/
def pushLength (xs : List Int) (x : Int) : List Int :=
  (if 8 ≤ xs.length then xs.drop 1 else xs) ++ [x]

/-- What every record taken brings: its L_D enters the length history, and the WNC no longer holds its
cut start. -/
def Wnc.took (w : Wnc) (r : Record) : Wnc :=
  { w with
    lengths := match r.emb.bind (·.lD) with
      | none => w.lengths
      | some x => pushLength w.lengths x
    cutStarts := w.cutStarts.filter fun c => c.index != r.index }

/-- The cut start written with a record; a record that has none, which the rules do not let be taken,
would get D. -/
def State.cutStartOr (s : State) (r : Record) : Pos := (s.cutStart r).getD s.d

/-- A record taken into a roll (R132): its WND group with stage request ASSIGNED, and the slot's repeat
count raised. A JOB_MARK record that is not the roll's first gives the design in force (R141). -/
def takeIntoRoll (i : Fin 12) (r : Record) (s : State) : State :=
  match s.wnc.slots[i].roll? with
  | none => s
  | some roll =>
    let w : Wnd := ⟨.roll i roll.number (roll.count + 1), s.cutStartOr r⟩
    let s := writePart .wnd r.index (fun x => { x.request .assigned with wnd := some w }) s
    let s := s.setWnc ((s.wnc.changeRoll i fun x => { x with count := x.count + 1 }).took r)
    match r.jobMark && r.index != roll.firstIndex, r.design with
    | true, some d => s.setWnc { s.wnc with design := d }
    | _, _ => s

/-- A record taken to waste (R132): it becomes the last index of the waste run, and its first when none
is open. -/
def takeToWaste (r : Record) (s : State) : State :=
  let w : Wnd := ⟨.waste, s.cutStartOr r⟩
  let s := writePart .wnd r.index (fun x => { x.request .assigned with wnd := some w }) s
  let waste := match s.wnc.waste with
    | none => (r.index, r.index)
    | some (first, _) => (first, r.index)
  s.setWnc { s.wnc.took r with waste := some waste }

/-- Every record not yet taken that lies before an index taken to waste, in index order: the web before a
roll's first record is waste (R133, R140; log entry 34). -/
def wasteBefore (first : Nat) : List Record → State → State
  | [], s => s
  | r :: rs, s =>
    if !s.isTaken r && r.index < first then wasteBefore first rs (takeToWaste r s) else wasteBefore first rs s

/-- A record held for the next roll: nothing is written yet (R132). -/
def holdRecord (r : Record) (s : State) : State := s.setWnc { s.wnc with held := s.wnc.held ++ [r.index] }

/-- A record taken by what follows a cut (R132). -/
def takeAsFollows (f : Follows) (r : Record) (s : State) : State :=
  match f with
  | .roll => holdRecord r s
  | .waste | .end_ => takeToWaste r s

/-- What follows a cut of a kind (R137). A record that carries both SPLICE and JOB_MARK is cut out as a
splice, since a splice record is never the first of a roll (R140). -/
def followsCut (kind : CutKind) (closing : Option Record) : Follows :=
  match kind with
  | .target | .start => .roll
  | .forced => if closing.any (fun r => r.splice.isSome) then .waste else .roll
  | .length => .waste
  | .final => .end_

/-- The closing record of an armed cut as the store holds it. -/
def State.closingRecord (s : State) (a : ArmedCut) : Option Record := a.closing.bind s.rst.find

/-- A record lies before an armed cut: before its closing record, or for LENGTH and FINAL with its cut
start before the cut position (R132, R137). -/
def State.beforeCut (s : State) (a : ArmedCut) (r : Record) : Bool :=
  match a.closing with
  | some c => r.index < c
  | none => match s.cutStart r with
    | some p => posDiff p a.cutPos < 0
    | none => false

/-- A record whose cut start has passed the knife is taken by the winder state (R132). -/
def takeRecord (r : Record) (s : State) : State :=
  match s.wnc.state with
  | .idle => s
  | .threading => takeToWaste r s
  | .winding => match s.wnc.winding with
    | none => s
    | some i => takeIntoRoll i r s
  | .cutArmed => match s.wnc.winding, s.wnc.armed with
    | some i, some a =>
      if s.beforeCut a r then takeIntoRoll i r s
      else takeAsFollows (followsCut a.kind (s.closingRecord a)) r s
    | _, _ => s
  | .knife | .indexing => match s.wnc.follows with
    | none => takeToWaste r s
    | some f => takeAsFollows f.what r s

/-- The next record to take, when its cut start has passed the knife (R132). -/
def takeNext (s : State) : Option State :=
  match s.untakenFrom 0 with
  | none => none
  | some r => match s.cutStart r with
    | none => none
    | some p => if passed s.d p then some (takeRecord r s) else none

/-! ### Arming (R133, R135, R136, R147) -/

/-- A cut armed: its fire position is its cut position less the lead (R136). -/
def armCut (kind : CutKind) (closing : Option Nat) (cutPos : Pos) (s : State) : State :=
  s.setWnc { s.wnc with armed := some { kind, closing, cutPos, firePos := posShift cutPos (-s.lead) } }

/-- A cut of the winding roll armed: the winder enters CUT_ARMED (R135). -/
def armRollCut (kind : CutKind) (closing : Option Nat) (cutPos : Pos) (s : State) : State :=
  let s := armCut kind closing cutPos s
  s.setWnc { s.wnc with state := .cutArmed }

/-- The kind of the cut at a closing record (R135, R142). -/
def closingKind (r : Record) : CutKind := if r.forces then .forced else .target

/-- The FINAL cut of a draining job, once the last record is DOWNSTREAM (R147). -/
def armFinal (s : State) : Option State :=
  if s.job.state = .draining then
    match s.rst.newest.bind s.finalPos with
    | none => none
    | some p => some (armRollCut .final none p s)
  else none

/-- In WINDING with no cut armed: the closing record found and DOWNSTREAM arms its cut, and a draining
job's roll without one gets the FINAL cut (R135, R147). -/
def seekCut (s : State) : Option State :=
  match s.windingRoll with
  | none => none
  | some (_, roll) => match s.closingOf roll with
    | none => armFinal s
    | some c => match s.cutStart c with
      | none => none
      | some p => some (armRollCut (closingKind c) (some c.index) p s)

/-- With a LENGTH cut armed: a FORCED cut found with a cut position before it replaces it, and a draining
job's roll without a closing record gets the FINAL cut (R144, R147). -/
def replaceLength (a : ArmedCut) (s : State) : Option State :=
  if a.kind = .length then
    match s.windingRoll with
    | none => none
    | some (_, roll) => match s.closingOf roll with
      | none => armFinal s
      | some c => match s.cutStart c with
        | none => none
        | some p =>
          if posDiff p a.cutPos < 0 then some (armRollCut (closingKind c) (some c.index) p s) else none
  else none

/-- A start record given up: the next one becomes the start record, and the start deferral is counted (R133,
R143). R130 gives the count the range 0 to 255 and no rule says what an increase past 255 does: the model
leaves it at 255 (DESIGN CHOICE, log entry 25). The STOP notice that a start deferral raises carries the start
deferral count as its extra repeats (log entry 25). -/
def deferStart (i : Nat) (s : State) : State :=
  let w := s.wnc
  let n := min (w.startDeferral + 1) 255
  checkStop none n (s.setWnc { w with
    armed := none, start := .from_ (i + 1), startDeferral := n
    counts := { w.counts with startDeferrals := bump w.counts.startDeferrals } })

/-- The record a splice cut-out names: the one 1 + `extra` records after the splice record, counted again
from the latest record on the way that carries SPLICE itself (R140). -/
def cutOutTarget (extra : Nat) : Nat → List Record → Option Nat
  | _, [] => none
  | left, r :: rs =>
    if r.splice.isSome then cutOutTarget extra extra rs
    else match left with
      | 0 => some r.index
      | k + 1 => cutOutTarget extra k rs

/-- A start record that carries SPLICE passed over by the cut-out rule (R133, R140). -/
def passSplice (r : Record) (s : State) : State :=
  s.setWnc { s.wnc with start := .cutOut r.index s.act.winder.extraWaste }

/-- The start record that a record just made becomes: in THREADING one that carries SPLICE is passed over in the
event that makes it (R133). -/
def nameStart (s : State) : State :=
  match s.wnc.state, s.wnc.start with
  | .threading, .from_ i => match s.untakenFrom i with
    | none => s
    | some r => if r.splice.isSome then passSplice r s else s
  | _, _ => s

/-- The start record chosen and its START cut armed (R133, R140). -/
def armStart (s : State) : Option State :=
  match s.wnc.start with
  | .none => none
  | .cutOut splice extra =>
    match cutOutTarget extra extra (s.rst.records.dropWhile fun r => r.index < splice) with
    | none => none
    | some i => some (s.setWnc { s.wnc with start := .from_ i })
  | .from_ i => match s.untakenFrom i with
    | none => none
    | some r =>
      if r.splice.isSome then some (passSplice r s)
      else match s.cutStart r with
        | none => none
        | some p => if passed s.d p then
                      some (deferStart r.index (wasteBefore (r.index + 1) s.rst.records s))
                    else some (armCut .start (some r.index) p s)

/-! ### Roll start (R134, R135) -/

/-- A roll as its slot is written at roll start (R134). -/
def newRoll (j : JobSettings) (number first target : Nat) (mode : RollMode) (start : Pos) (design : Nibble) :
    Roll :=
  { number, firstIndex := first, count := 0, target, mode, start, length := none,
    matchOffset := j.winder.matchOffset, design, short := false, overlength := false, extra := 0,
    trackLost := mode == .length, defects := .zero, shade := none, samples := 0, grade := none,
    batch := none, label := .none }

/-- n_t: ceil(target length / mean repeat), from 1 to 150 (R134). -/
def State.targetRepeats (s : State) : Nat :=
  max 1 (min 150 (ceilDiv s.act.winder.targetLength s.meanRepeat.toNat))

/-- The design of a new roll: that of its first record when it carries JOB_MARK and a design, otherwise
the design in force (R134). -/
def State.startDesign (s : State) (first : Nat) : Nibble :=
  match s.rst.find first with
  | some r => if r.jobMark then r.design.getD s.wnc.design else s.wnc.design
  | none => s.wnc.design

/-- The held records taken into the roll, in index order (R134). -/
def takeHeld (i : Fin 12) : List Nat → State → State
  | [], s => s
  | h :: hs, s => match s.rst.find h with
    | none => takeHeld i hs s
    | some r => takeHeld i hs (takeIntoRoll i r s)

/-- The boundaries by which a closing record among the records just taken has gone by: the records from
it up to the first one not yet taken (R135). -/
def State.boundaries (s : State) (closing : Nat) : Nat :=
  s.rst.records.countP fun r => closing ≤ r.index && s.isTaken r

/-- `n` deferrals counted on the winding roll: OVERLENGTH, its extra repeats, the count, and the stop
request past the maximum (R142, R143). That R135's one deferral of `n` boundaries raises the deferral count by `n`
is the model's choice (log entry 23). -/
def countDeferrals (i : Fin 12) (n : Nat) (s : State) : State :=
  let w := s.wnc.changeRoll i fun r => { r with overlength := true, extra := min (r.extra + n) 255 }
  let s := s.setWnc { w with counts := { w.counts with deferrals := bump w.counts.deferrals n } }
  match s.wnc.slots[i].roll? with
  | none => s
  | some r => checkStop (some r.number) r.extra s

/-- At a roll start, a closing record among the records just taken is a deferral: the roll is
overlength, and the closing record becomes the first record not yet taken, in LENGTH mode too; the deferral
count rises by as many as the boundaries gone by (R135; log entry 23). -/
def passHeldClosing (i : Fin 12) (s : State) : State :=
  match s.wnc.slots[i].roll? with
  | none => s
  | some roll => match s.closingOf roll with
    | none => s
    | some c =>
      if s.isTaken c then
        let n := s.boundaries c.index
        let from_ := match s.untakenFrom c.index with
          | some r => r.index
          | none => (s.rst.newest.map (·.index)).getD c.index + 1
        countDeferrals i n (s.setWnc { s.wnc with close := .next from_ })
      else s

/-- The LENGTH cut of a roll: its start position plus its target length (R144). -/
def armLength (i : Fin 12) (s : State) : State :=
  match s.wnc.slots[i].roll? with
  | none => s
  | some roll => armRollCut .length none (posShift roll.start s.wnc.rollTarget) s

/-- The start of a roll (R134) with its first record, its start position and its mode: it takes the slot
allocatable, which the fire of the cut has made sure of. -/
def startRoll (first : Nat) (start : Pos) (mode : RollMode) (s : State) : State :=
  match s.allocatable with
  | none => s
  | some i =>
    let number := s.wnc.nextRoll
    let design := s.startDesign first
    let target := s.targetRepeats
    let roll := newRoll s.act number first target mode start design
    let held := s.wnc.held
    let s := s.setWnc { s.wnc.setSlot i (.used .winding roll) with
      state := .winding, winding := some i, armed := none, close := .seek (first + 1), follows := none,
      held := [], start := .none, design, rollTarget := s.act.winder.targetLength,
      nextRoll := number + 1 }
    let s := takeHeld i held s
    let s := raise (.rollStart i number first target mode design start) s
    let s := passHeldClosing i s
    if mode = .length then armLength i s else s

/-! ### Firing (R133, R137, R138) -/

/-- The knife fires: its timer starts from the knife time and its output is on (R133, R137). -/
def fireKnife (s : State) : State :=
  s.setWnc { s.wnc with knife := s.wnc.knife.start s.act.winder.knifeTime, knifeOn := true }

/-- The waste run freed and closed (R50, R133). -/
def freeWasteRun (s : State) : State :=
  match s.wnc.waste with
  | none => s
  | some (first, last) =>
    (s.setRst (s.rst.freeWaste first last)).setWnc { s.wnc with waste := none }

/-- A due START cut: blocked when no slot is allocatable, otherwise fired (R133). -/
def startDue (a : ArmedCut) (s : State) : State :=
  let first := a.closing.getD 0
  match s.allocatable with
  | none => deferStart first s
  | some _ =>
    let s := fireKnife s
    let s := s.setWnc { s.wnc with gateOpen := false }
    let s := freeWasteRun (wasteBefore first s.rst.records s)
    let s := s.setWnc { s.wnc with
      startDeferral := 0
      counts := { s.wnc.counts with startCuts := bump s.wnc.counts.startCuts } }
    clearStop (startRoll first a.cutPos .pattern s)

/-- Records not yet taken that lie before the cut, taken into the roll in index order (R137, step 2). -/
def takeBefore (i : Fin 12) (a : ArmedCut) : List Record → State → State
  | [], s => s
  | r :: rs, s =>
    if !s.isTaken r && s.beforeCut a r then takeBefore i a rs (takeIntoRoll i r s)
    else takeBefore i a rs s

/-- The gate after a cut: open when the web goes to waste (R137). -/
def gateAfter (f : Follows) : Bool := f != .roll

/-- Where the threading after a cut will look for its start record: at a splice, where its cut-out names;
otherwise at the oldest record not yet taken (R133, R140). -/
def startAfter (a : ArmedCut) (closing : Option Record) (extra : Nat) : StartRef :=
  match a.kind, closing with
  | .forced, some r => if r.splice.isSome then .cutOut r.index extra else .from_ 0
  | _, _ => .from_ 0

/-- A roll shorter than the minimum wasted (R138). -/
def wasteRoll (i : Fin 12) (roll : Roll) (s : State) : State :=
  let freed := s.rst.freeRoll i roll.number
  let w := s.wnc.setSlot i .free
  raise (.rollWasted roll.number i freed.2 .minRoll)
    ((s.setRst freed.1).setWnc { w with counts := { w.counts with wasted := bump w.counts.wasted } })

/-- The roll closed (R137, steps 4 to 6): the store's closure, the slot in CUT with its length and SHORT,
the shade, and the ROLL_CUT notice. -/
def cutRoll (i : Fin 12) (cutPos : Pos) (roll : Roll) (s : State) : State :=
  let closed := s.rst.close i roll.number
  let length := posDiff cutPos roll.start
  let short := decide (closed.2 < roll.target)
  let w := s.wnc.setSlot i (.used .cut { roll with count := closed.2, length := some length, short })
  let counts := { w.counts with
    cut := bump w.counts.cut, short := if short then bump w.counts.short else w.counts.short }
  let s := shadeRoll i ((s.setRst closed.1).setWnc { w with counts })
  raise (.rollCut i roll.number closed.2 length roll.mode short roll.overlength roll.trackLost roll.extra) s

/-- The minimum-roll rule applies to FORCED and FINAL cuts (R138). -/
def minRollApplies (k : CutKind) : Bool := k == .forced || k == .final

/-- A TARGET, FORCED, LENGTH or FINAL cut fires (R137). -/
def fireCut (i : Fin 12) (a : ArmedCut) (s : State) : State :=
  let closing := s.closingRecord a
  let what := followsCut a.kind closing
  let s := fireKnife s
  let s := takeBefore i a s.rst.records s
  let s := match s.wnc.slots[i].roll? with
    | none => s
    | some roll =>
      if minRollApplies a.kind && roll.count < s.act.winder.minRoll then wasteRoll i roll s
      else cutRoll i a.cutPos roll s
  clearStop (s.setWnc { s.wnc with
    state := .knife, winding := none, armed := none, gateOpen := gateAfter what
    follows := some { what, first := a.closing.getD 0, cutPos := a.cutPos, lengthMode := false
                      thread := startAfter a closing s.act.winder.extraWaste } })

/-- A due cut is blocked while a slot is in CUT, or when it would be followed by ROLL and no slot is
allocatable (R142). -/
def State.blocked (s : State) (a : ArmedCut) : Bool :=
  (s.wnc.slotIn .cut).isSome ||
    (followsCut a.kind (s.closingRecord a) == .roll && s.allocatable.isNone)

/-- A blocked cut moves on (R142): TARGET and FORCED to the next record after the closing record, LENGTH
and FINAL by one mean repeat. -/
def deferCut (i : Fin 12) (a : ArmedCut) (s : State) : State :=
  let s := countDeferrals i 1 s
  match a.closing with
  | some c => s.setWnc { s.wnc with state := .winding, armed := none, close := .next (c + 1) }
  | none => armRollCut a.kind none (posShift a.cutPos s.meanRepeat) s

/-- A due cut of the winding roll fires or is deferred (R136, R142). -/
def cutDue (a : ArmedCut) (s : State) : State :=
  match s.wnc.winding with
  | none => s
  | some i => if s.blocked a then deferCut i a s else fireCut i a s

/-! ### The end of a job (R147) -/

/-- The winder enters IDLE at the end of a job: the waste run freed, the gate open, the stop request
cleared. -/
def endThreading (s : State) : State :=
  let s := freeWasteRun s
  clearStop (s.setWnc { s.wnc with state := .idle, gateOpen := true, start := .none, armed := none })

/-- The store holds a record not yet taken that can be the start record. -/
def State.hasStart (s : State) : Bool :=
  match s.wnc.start with
  | .none => false
  | .cutOut splice extra =>
    (cutOutTarget extra extra (s.rst.records.dropWhile fun r => r.index < splice)).isSome
  | .from_ i => (s.untakenFrom i).isSome

/-- In THREADING of a draining job with no record left to start a roll on, the winder waits until D has
passed the last record's final position (R147), also when the THREADING comes after a JOB END taken in
KNIFE or INDEXING (log entry 23). -/
def endIfDrained (s : State) : Option State :=
  if s.job.state = .draining ∧ ¬ s.hasStart then
    match s.rst.newest with
    | none => some (endThreading s)
    | some r => match s.finalPos r with
      | none => none
      | some p => if passed s.d p then some (endThreading s) else none
  else none

/-! ### One step, and all of them -/

/-- The first of two things due. -/
def orElse (a b : Option State) : Option State :=
  match a with
  | some s => some s
  | none => b

/-- The one thing the winder does next at the present position of D, or none when nothing is due. A cut
that falls due comes before a record that passes the knife (R132). -/
def wncStep (s : State) : Option State :=
  match s.wnc.state with
  | .idle => none
  | .knife | .indexing => takeNext s
  | .threading => match s.wnc.armed with
    | some a => if passed s.d a.firePos then some (startDue a s) else takeNext s
    | none => orElse (armStart s) (orElse (takeNext s) (endIfDrained s))
  | .winding | .cutArmed => match s.wnc.armed with
    | some a =>
      orElse (replaceLength a s)
        (if passed s.d a.firePos then some (cutDue a s) else takeNext s)
    | none => orElse (seekCut s) (takeNext s)

/-- Steps taken one after another until nothing is due. -/
def wncRun : Nat → State → State
  | 0, s => s
  | k + 1, s => match wncStep s with
    | none => s
    | some t => wncRun k t

/-- More steps than one event can call for: a few for each record of the store, and one for each mean repeat that a
blocked LENGTH or FINAL cut is moved on by until it lies ahead of D (R136, R142; log entry 30). -/
def wncFuel (s : State) : Nat := 2 ^ 40 + 4 * s.rst.records.length

/-- Everything the winder has to do at the present position of D. -/
def wncSettle (s : State) : State := wncRun (wncFuel s) s

/-! ### Events -/

/-- A record has become DOWNSTREAM with a key_D: the WNC gives it its cut-start position (R131) and does
what is due. -/
def wncDownstream (index : Nat) (keyD : HalfPos) (s : State) : State :=
  let p := posShift (halfRound keyD) (s.act.winder.knifeDistance + s.act.winder.matchOffset)
  wncSettle (s.setWnc { s.wnc with cutStarts := s.wnc.cutStarts ++ [⟨index, p⟩] })

/-- The fire position of the armed cut worked out again at a speed measurement (R136). -/
def wncSpeed (s : State) : State :=
  wncSettle (match s.wnc.armed with
    | none => s
    | some a => armCut a.kind a.closing a.cutPos s)

/-- A roll switched to LENGTH mode (R144). -/
def switchLength (i : Fin 12) (roll : Roll) (s : State) : State :=
  let w := s.wnc.changeRoll i fun r => { r with mode := .length, trackLost := true }
  let s := s.setWnc { w with
    counts := { w.counts with lengthRolls := bump w.counts.lengthRolls }
    close := match w.close with
      | .next k => .seek k
      | .seek k => .seek k }
  let lengthPos := posShift roll.start s.wnc.rollTarget
  match s.wnc.armed with
  | some a => if a.kind = .forced ∧ posDiff a.cutPos lengthPos < 0 then s else armLength i s
  | none => armLength i s

/-- The Repeat Tracker reports entry to LOST (R144). -/
def wncLost (s : State) : State :=
  match s.wnc.state with
  | .winding | .cutArmed => match s.windingRoll with
    | none => s
    | some (i, roll) => if roll.mode = .length then s else wncSettle (switchLength i roll s)
  | .knife | .indexing => match s.wnc.follows with
    | none => s
    | some f =>
      if f.what = .roll ∧ ¬ f.lengthMode then
        s.setWnc { s.wnc with
          follows := some { f with lengthMode := true }
          counts := { s.wnc.counts with lengthRolls := bump s.wnc.counts.lengthRolls } }
      else s
  | _ => s

/-- Expiry of the knife timer: the output goes off, and in KNIFE the turret indexes (R133, R139). -/
def knifeExpiry (s : State) : State :=
  if s.wnc.knife.due then
    let w := { s.wnc with knife := s.wnc.knife.expire, knifeOn := false }
    if w.state = .knife then
      s.setWnc { w with state := .indexing, turretOn := true
                        turret := w.turret.start s.act.winder.turretTime }
    else s.setWnc w
  else s

/-- What the turret's expiry in INDEXING leads to (R139). -/
def turretFollows (f : Following) (s : State) : State :=
  match f.what with
  | .roll => startRoll f.first f.cutPos (if f.lengthMode then .length else .pattern) s
  | .waste => s.setWnc { s.wnc with state := .threading, follows := none, start := f.thread }
  | .end_ => clearStop (s.setWnc { s.wnc with state := .idle, follows := none, gateOpen := true, start := .none })

/-- Expiry of the turret timer: the output goes off, and in INDEXING what follows decides (R139). -/
def turretExpiry (s : State) : State :=
  if s.wnc.turret.due then
    let s := s.setWnc { s.wnc with turret := s.wnc.turret.expire, turretOn := false }
    match s.wnc.state, s.wnc.follows with
    | .indexing, some f => wncSettle (turretFollows f s)
    | _, _ => s
  else s

/-- A doff pulse (R145): the slot in CUT enters LABEL_PENDING, is graded and joins the label queue; with
no slot in CUT the pulse is ignored and counted. -/
def doffPulse (s : State) : State :=
  let w := s.wnc
  match w.slotIn .cut with
  | none =>
    raise (.doff none)
      (s.setWnc { w with counts := { w.counts with ignoredDoffs := bump w.counts.ignoredDoffs } })
  | some i =>
    let w := { w.setPhase i .labelPending with counts := { w.counts with doffs := bump w.counts.doffs } }
    let s := raise (.doff (some (i, w.numberIn i))) (s.setWnc w)
    joinQueue i (gradeRoll i s)

/-- The winder at JOB END (R147): in THREADING with no record left to take it ends at once; the other
cases follow what is due. -/
def wncJobEnd (s : State) : State :=
  if s.wnc.state = .threading ∧ (s.untakenFrom 0).isNone then endThreading s else wncSettle s

/-- The winder at ARM (R130, R143). -/
def wncArm (s : State) : State :=
  let w := s.wnc
  clearStop (s.setWnc { w with
    state := .threading, gateOpen := true, winding := none, armed := none, close := .seek 0,
    follows := none, held := [], start := .from_ 0, waste := none, cutStarts := [],
    design := s.act.winder.design, lengths := [], counts := .zero })

/-- A slot in WINDING, CUT or LABEL_PENDING becomes FREE at JOB ABORT, with its ROLL_WASTED notice (R148). -/
def abandonSlot (i : Fin 12) (s : State) : State :=
  match s.wnc.slots[i] with
  | .free => s
  | .used .labelled _ => s
  | .used _ r =>
    raise (.rollWasted r.number i (s.rst.ofRoll i r.number).length .abort)
      (s.setWnc (s.wnc.setSlot i .free))

/-- The winder at JOB ABORT (R148); the store is emptied after it. -/
def wncAbort (s : State) : State :=
  let s := slotList.foldl (fun s i => abandonSlot i s) s
  clearStop (s.setWnc { s.wnc with
    state := .idle, gateOpen := true, winding := none, armed := none, close := .seek 0, follows := none,
    held := [], start := .none, waste := none, cutStarts := [], startDeferral := 0 })

/-- The directory and the roll numbering at JOB CLEAR (R128, R129). -/
def Wnc.clear (w : Wnc) (first : Nat) : Wnc := { w with slots := emptySlots, nextRoll := first }

end Sys2Proof.Machine
end

