-- ==== Sys2Proof/Machine/Emboss.lean ====
section
/-! DEFINITION. The Emboss Controller: the nip, the splice watch list, the records found again at the
emboss scanner, stretch and draw, fiducials, and the stamp at the nip (R93 to R112). -/

namespace Sys2Proof.Machine

/-! ### The nip (R105 to R107) -/

/-- The Emboss Controller with its counts changed. -/
def Emc.count (e : Emc) (f : EmcCounts → EmcCounts) : Emc := { e with counts := f e.counts }

/-- The nip is ENGAGING or ENGAGED: the valve output is on (R105). -/
def NipState.valve : NipState → Bool
  | .engaging | .engaged => true
  | .lifted | .lifting => false

/-- The nip in another state, with its NIP notice (R105). -/
def setNip (new : NipState) (cause : NipCause) (s : State) : State :=
  raise (.nip s.emc.nip new cause s.d) (s.setEmc { s.emc with nip := new })

/-- What a lift of a cause sets whatever the nip state: LIFT and SPLICE_LOST set the last lift cause, and
they and JOB clear the pending flag (R106). -/
def Emc.noteLift (e : Emc) (cause : NipCause) : Emc :=
  match cause with
  | .host | .spliceLost => { e with lastLift := cause, autoPending := false }
  | .job => { e with autoPending := false }
  | _ => e

/-- A lift (R105, R106). -/
def liftNip (cause : NipCause) (s : State) : State :=
  let e := s.emc.noteLift cause
  if e.nip.valve then
    setNip .lifting cause
      (s.setEmc { e with timer := e.timer.start s.act.emboss.liftTime, lastLift := cause })
  else s.setEmc e

/-- An engage started in LIFTED (R105, R107). -/
def startEngage (cause : NipCause) (s : State) : State :=
  setNip .engaging cause
    (s.setEmc { s.emc with timer := s.emc.timer.start s.act.emboss.engageTime, autoPending := false })

/-- The position where a watched splice lifts the nip (R108). -/
def EmbossSettings.liftPoint (e : EmbossSettings) (w : Watched) : Pos :=
  posShift w.pos ((e.nipDistance : Int) - e.liftLead)

/-- The position where a watched splice is at the nip (R108). -/
def EmbossSettings.nipPoint (e : EmbossSettings) (w : Watched) : Pos := posShift w.pos e.nipDistance

/-- The position where a watched splice leaves the list (R108). -/
def EmbossSettings.departPoint (e : EmbossSettings) (w : Watched) : Pos :=
  posShift w.pos ((e.nipDistance : Int) + e.trailing)

/-- A watched splice is in its clearance zone: D has passed its lift point and not its nip position
(R108). -/
def State.inZone (s : State) (w : Watched) : Bool :=
  passed s.d (s.act.emboss.liftPoint w) && !passed s.d (s.act.emboss.nipPoint w)

/-- No watched splice is in its clearance zone (R107). -/
def State.clear (s : State) : Bool := !s.emc.watch.any s.inZone

/-- The first three conditions of R107: the job is ARMED, the nip LIFTED, and D fast enough. -/
def State.engageState (s : State) : Bool :=
  s.job.state == .armed && s.emc.nip == .lifted && (s.act.emboss.minSpeed : Int) ≤ s.epu.d.speed

/-- A try of auto-engage: with the flag set and auto-engage on, the engage starts when all of R107 holds
(R109). -/
def tryAuto (s : State) : State :=
  if s.emc.autoPending && s.act.emboss.autoEngage && s.engageState && s.clear then startEngage .auto s else s

/-- Expiry of the nip timer (R105, R109). -/
def nipExpiry (s : State) : State :=
  if s.emc.timer.due then
    let s := s.setEmc { s.emc with timer := s.emc.timer.expire }
    match s.emc.nip with
    | .engaging => setNip .engaged .timer s
    | .lifting => tryAuto (setNip .lifted .timer s)
    | .lifted | .engaged => s
  else s

/-- What a speed measurement brings the nip: a lift below the minimum emboss speed, then a try of
auto-engage (R106, R109). -/
def nipSpeed (s : State) : State :=
  tryAuto (if s.epu.d.speed < (s.act.emboss.minSpeed : Int) then liftNip .speed s else s)

/-! ### Splices at the nip (R108, R109) -/

/-- The number of entries of the splice watch list (R108). -/
def watchCapacity : Nat := 4

/-- A watched splice placed by position, after every entry at or before it (R108). R108 says only in order of
position: that of two entries at one splice_D the later one follows the earlier is the model's choice
(DESIGN CHOICE, log entry 40). -/
def insertWatched (w : Watched) : List Watched → List Watched
  | [] => [w]
  | x :: xs => if posDiff w.pos x.pos < 0 then w :: x :: xs else x :: insertWatched w xs

/-- A splice handed over by the tracker at the present D (R108). -/
def watchSplice (stamp : Option Nat) (s : State) : State :=
  if s.emc.watch.length < watchCapacity then
    let w : Watched := ⟨s.d, stamp, false⟩
    let taken := passed s.d (s.act.emboss.liftPoint w)
    let s := s.setEmc { s.emc with watch := insertWatched { w with liftPassed := taken } s.emc.watch }
    if taken then liftNip .splice s else s
  else
    liftNip .spliceLost (raise (.spliceLostWatch s.d stamp)
      (s.setEmc (s.emc.count fun c => { c with lostWatch := bump c.lostWatch })))

/-- Every watched splice holds again whether D has passed its lift point (R108): at a count of D, and when
settings that move its lift point become active (log entry 4). -/
def refreshWatch (s : State) : State :=
  s.setEmc { s.emc with
    watch := s.emc.watch.map fun w => { w with liftPassed := passed s.d (s.act.emboss.liftPoint w) } }

/-- A watched splice's lift point is passed, and it was not at the count before (R108). -/
def State.liftsNow (s : State) (w : Watched) : Bool := !w.liftPassed && passed s.d (s.act.emboss.liftPoint w)

/-- The lift points that D has passed: one lift with cause SPLICE for each (R108). A web that has run back
behind a lift point meets it again on its way forward (log entry 4). -/
def liftPoints (s : State) : State :=
  (s.emc.watch.filter s.liftsNow).foldl (fun s _ => liftNip .splice s) (refreshWatch s)

/-- One entry has left the list (R109): with auto-engage on, the flag is set after a SPLICE lift, and an
engage is tried. -/
def departed (s : State) : State :=
  if s.act.emboss.autoEngage && s.emc.lastLift == .splice && !s.emc.nip.valve then
    tryAuto (s.setEmc { s.emc with autoPending := true })
  else s

/-- The departure points that D has passed: their entries leave in order (R108, R109). -/
def departures : List Watched → State → State
  | [], s => s
  | w :: ws, s =>
    if passed s.d (s.act.emboss.departPoint w) then
      departures ws (departed (s.setEmc { s.emc with watch := s.emc.watch.erase w }))
    else departures ws s

/-- The splice watch list at a count of D (R108, R109). -/
def watchSweep (s : State) : State :=
  let s := liftPoints s
  departures s.emc.watch s

/-! ### Writes to the EMB group (R111) -/

/-- A group in which no event has written a field. -/
def Emb.blank : Emb :=
  { seenAt := none, lD := none, stretch := none, nip := none, phase := none, wrongRepeat := false, out := false }

/-- A record with its EMB group changed by an event. -/
def Record.withEmb (r : Record) (f : Emb → Emb) : Record := { r with emb := some (f (r.emb.getD .blank)) }

/-- An EMB write without a stage request (R111). -/
def writeEmb (index : Nat) (f : Emb → Emb) (s : State) : State := writePart .emb index (fun r => r.withEmb f) s

/-- An EMB write with the stage request DOWNSTREAM (R111). -/
def writeDownstream (index : Nat) (x : SeenAt) (s : State) : State :=
  writePart .emb index (fun r => (r.request .downstream).withEmb fun e => { e with seenAt := some x }) s

/-! ### The emboss loop (R101, R103) -/

/-- The place of L8. -/
def embossLoop : Fin 8 := 7

/-- A record of a counter is a fiducial repeat (R101). -/
def EmbossSettings.fiducialRepeat (e : EmbossSettings) (counter : Option Nibble) : Bool :=
  e.ratio == 1 || match counter with
    | none => false
    | some c => c.toNat % e.ratio == e.lockIndex

/-- A fiducial repeat left unpaired (R103): a miss for L8 when it was stamped ENGAGED and carries no
SPLICE. -/
def leftUnpaired (index : Nat) (nip : Option Bool) (splice : Bool) (s : State) : State :=
  if nip = some true ∧ ¬ splice then
    takeInput embossLoop .miss index (s.setEmc (s.emc.count fun c => { c with missing := bump c.missing }))
  else s

/-- The pairing key, tested when another record becomes DOWNSTREAM (R103). -/
def testPairKey (s : State) : State :=
  match s.emc.pairKey with
  | none => s
  | some k => if k.fiducial && !k.paired then leftUnpaired k.index k.nip k.splice s else s

/-! ### Length, stretch and draw (R98 to R100) -/

/-- The stretch history with one more value; the oldest of 8 leaves (R100). -/
def pushStretch (xs : List Int) (x : Int) : List Int := (if 8 ≤ xs.length then xs.drop 1 else xs) ++ [x]

/-- A computed stretch: rejected beyond ±50,000 ppm, otherwise into the history, with a draw command
(R99, R100). -/
def takeStretch (x : Int) (s : State) : State :=
  if stretchMax < x.natAbs then
    s.setEmc (s.emc.count fun c => { c with stretchRejects := bump c.stretchRejects })
  else
    let xs := pushStretch s.emc.stretch x
    sendDraw (mean xs - s.act.emboss.designStretch) (s.setEmc { s.emc with stretch := xs })

/-- The stretch of the last downstream record when its conditions hold (R99); a record that has been freed has
no L_U present (log entry 36). -/
def State.stretchFor (s : State) (q : LastDown) (seen seenUp : Bool) (lD : Int) : Option Int :=
  if q.seen && seen && q.seenUp && seenUp then ((s.rst.find q.index).bind (·.lU)).map (stretchOf lD) else none

/-- The length of the last downstream record, when the record that follows it becomes DOWNSTREAM (R98). -/
def lengthOf (index : Nat) (seen seenUp : Bool) (keyD : HalfPos) (s : State) : State :=
  match s.emc.lastDown with
  | none => s
  | some q =>
    if q.index + 1 = index then
      let lD := roundDiv (halfDiff keyD q.keyD) 2
      let stretch := s.stretchFor q seen seenUp lD
      let s := writeEmb q.index (fun e => { e with lD := some lD, stretch := stretch.or e.stretch }) s
      let s := if q.seen && seen then s.setEmc { s.emc with lastLD := some lD } else s
      match stretch with
      | none => s
      | some x => takeStretch x s
    else s

/-! ### Records becoming DOWNSTREAM (R96, R97) -/

/-- A record was seen upstream: neither PREDICTED nor MISSED (R94). -/
def Record.seenUp (r : Record) : Bool := !r.predicted && !r.missed

/-- The pairing key a SEEN record becomes (R94). -/
def pairKeyOf (e : EmbossSettings) (r : Record) (keyD : HalfPos) : PairKey :=
  { index := r.index, keyD, fiducial := e.fiducialRepeat r.counter, nip := r.emb.bind (·.nip),
    splice := r.splice.isSome, paired := false }

/-- A record becomes DOWNSTREAM, seen or unseen, with a key_D: the old pairing key is tested, the record
written, the gap raised, the length before it taken, and the pairing key replaced (R96 to R98, R101, R103).
What R103 does not order stands in this order, a missing fiducial of the record itself handed to L8 after the
length before it, and the Winder Controller told last, which R47 and R98 leave open (DESIGN CHOICE, log entry
12). -/
def makeDownstream (r : Record) (seen : Bool) (keyD : HalfPos) (s : State) : State :=
  let s := testPairKey s
  let s := writeDownstream r.index ⟨seen, keyD⟩ s
  let s := s.setEmc { s.emc with gap := min (s.emc.gap + 1) 255 }
  let s := lengthOf r.index seen r.seenUp keyD s
  let s := s.setEmc { s.emc with
    lastDown := some ⟨r.index, keyD, seen, r.seenUp⟩
    pairKey := if seen then some (pairKeyOf s.act.emboss r keyD) else none }
  let s := if !seen && s.act.emboss.fiducialRepeat r.counter then
      leftUnpaired r.index (r.emb.bind (·.nip)) r.splice.isSome s
    else s
  wncDownstream r.index keyD s

/-- The expected centre sum of a record at the emboss scanner: 2 × (key_T + S_e) (R96). -/
def expectedAt (e : EmbossSettings) (keyT : Pos) : HalfPos := half (posShift keyT e.scannerDistance)

/-- A record's key_T; a TRANSFERRED record has one (R37). -/
def Record.keyTOr (r : Record) : Pos := r.keyT.getD 0

/-- The key_D of a record that was not seen (R97). -/
def State.predictedKeyD (s : State) (r : Record) : HalfPos :=
  match s.emc.lastDown, s.emc.lastLD with
  | some q, some l =>
    if q.index + 1 = r.index then halfShift q.keyD (2 * l) else expectedAt s.act.emboss r.keyTOr
  | _, _ => expectedAt s.act.emboss r.keyTOr

/-- A TRANSFERRED record becomes DOWNSTREAM unseen (R97). -/
def makeUnseen (r : Record) (s : State) : State :=
  makeDownstream r false (s.predictedKeyD r)
    (s.setEmc (s.emc.count fun c => { c with predicted := bump c.predicted }))

/-- The candidates for a group: the oldest TRANSFERRED record, and of the two after it in the store those
that are TRANSFERRED (R96). -/
def Rst.candidates (t : Rst) : List Record :=
  ((t.records.dropWhile fun r => r.stage != .transferred).take 3).filter fun r => r.stage == .transferred

/-- A candidate fits a group: within the window, and the counters do not differ (R96). -/
def fitsGroup (e : EmbossSettings) (c : HalfPos) (counter : Option Nibble) (r : Record) : Bool :=
  (halfDiff c (expectedAt e r.keyTOr)).natAbs ≤ 2 * e.window &&
    match counter, r.counter with
    | some x, some y => x == y
    | _, _ => true

/-- The candidates passed over, made unseen in index order (R96). -/
def passOver : List Record → State → State
  | [], s => s
  | r :: rs, s => passOver rs (makeUnseen r s)

/-- An emboss group delivered (R96): its record becomes DOWNSTREAM, SEEN, after the candidates before it;
without a record the group is unidentified. -/
def takeEmbossGroup (g : EmbossGroup) (s : State) : State :=
  let c := centreSum g.key.lead g.key.trail
  let fits := fitsGroup s.act.emboss c (counterWord g.cells).value
  let cs := s.rst.candidates
  match cs.find? fits with
  | none =>
    s.setEmc { s.emc.count (fun c => { c with unidentified := bump c.unidentified }) with pairKey := none }
  | some r =>
    let before := cs.takeWhile fun x => !fits x
    let s := passOver before
      (s.setEmc (s.emc.count fun c => { c with skipped := bump c.skipped before.length }))
    makeDownstream r true c s

/-- The point past which a TRANSFERRED record can no longer be seen (R97). -/
def JobSettings.expiryPoint (j : JobSettings) (keyT : Pos) : Pos :=
  posShift keyT (j.emboss.scannerDistance + j.emboss.window + j.reader.codeLag + 1)

/-- The TRANSFERRED records whose expiry point D has passed, oldest first (R97). -/
def unseenRun : Nat → State → State
  | 0, s => s
  | k + 1, s => match s.rst.oldestIn .transferred with
    | none => s
    | some r =>
      if passed s.d (s.act.expiryPoint r.keyTOr) then unseenRun k (makeUnseen r s) else s

/-- The expiries at a count of D, while the job runs (R95, R97). -/
def unseenSweep (s : State) : State := if s.lineRuns then unseenRun s.rst.records.length s else s

/-! ### Fiducials (R102 to R104) -/

/-- The largest consecutive counts (R94). -/
def runMax : Nat := 15

/-- A fiducial that is not paired (R102). -/
def unpairedFiducial (s : State) : State := s.setEmc (s.emc.count fun c => { c with unpaired := bump c.unpaired })

/-- Either consecutive count lifts the nip: both become 0 (R104). -/
def liftForRun (cause : NipCause) (s : State) : State :=
  liftNip cause (s.setEmc { s.emc with wrongRun := 0, overRun := 0 })

/-- The pairing key paired: the gap is 0 (R102). -/
def Emc.pair (e : Emc) (k : PairKey) : Emc := { e with pairKey := some { k with paired := true }, gap := 0 }

/-- A raw error beyond twice a limit in counts. -/
def beyond (e : Int) (limit : Nat) : Bool := 2 * limit < e.natAbs

/-- A right pairing with a phase error (R102 to R104). -/
def rightPairing (k : PairKey) (e : Int) (s : State) : State :=
  let cfg := s.act.emboss
  let s := writeEmb k.index (fun x => { x with phase := some e, out := beyond e cfg.tolerance }) s
  let s := s.setEmc { s.emc.pair k with wrongRun := 0 }
  if k.splice then s
  else
    let s := takeInput embossLoop (.sample e) k.index s
    if beyond e cfg.abortLimit then
      let n := min (s.emc.overRun + 1) runMax
      let s := s.setEmc { s.emc with overRun := n }
      if cfg.abortCount ≤ n ∧ s.emc.nip.valve then liftForRun .phase s else s
    else s.setEmc { s.emc with overRun := 0 }

/-- A pairing as WRONG_REPEAT (R102 to R104). -/
def wrongPairing (k : PairKey) (s : State) : State :=
  let s := writeEmb k.index (fun x => { x with phase := none, wrongRepeat := true }) s
  let n := min (s.emc.wrongRun + 1) runMax
  let s := s.setEmc { (s.emc.pair k).count (fun c => { c with wrongRepeats := bump c.wrongRepeats }) with
                      wrongRun := n }
  let s := takeInput embossLoop .miss k.index s
  if 2 ≤ n ∧ s.emc.nip = .engaged then liftForRun .wrongRepeat s else s

/-- A fiducial delivered with its centre sum (R102). -/
def takeFiducial (f : HalfPos) (s : State) : State :=
  match s.emc.pairKey with
  | none => unpairedFiducial s
  | some k =>
    if k.paired then unpairedFiducial s
    else if k.fiducial then rightPairing k (halfDiff f k.keyD - 2 * s.act.emboss.nominal) s
    else if s.act.emboss.ratio ≤ s.emc.gap then wrongPairing k s
    else unpairedFiducial s

/-- A mark delivered as a fiducial. -/
def takeFiducialMark (m : Mark) (s : State) : State := takeFiducial (centreSum m.lead m.trail) s

/-! ### The stamp at the nip (R110) -/

/-- A record stamped with the nip state; the pairing key takes the stamp of its own record. -/
def stampRecord (r : Record) (s : State) : State :=
  let engaged := s.emc.nip == .engaged
  let s := writeEmb r.index (fun x => { x with nip := some engaged }) s
  s.setEmc { s.emc with
    stampFrom := r.index + 1
    pairKey := s.emc.pairKey.map fun k => if k.index = r.index then { k with nip := some engaged } else k }

/-- The records whose nip position D has passed, stamped in index order (R110). -/
def stampRun : Nat → State → State
  | 0, s => s
  | k + 1, s => match s.rst.fromIndex s.emc.stampFrom with
    | none => s
    | some r => match r.keyT with
      | none => s
      | some t =>
        if passed s.d (posShift t s.act.emboss.nipDistance) then stampRun k (stampRecord r s) else s

/-- The stamps at a count of D, while the job runs (R95, R110). -/
def stampSweep (s : State) : State := if s.lineRuns then stampRun s.rst.records.length s else s

/-! ### Job orders (R94) -/

/-- What ARM and JOB ABORT reset alike (R94). R95 gives the next record to stamp at ARM, the oldest record;
that JOB ABORT sets it so too is the model's choice (DESIGN CHOICE, log entry 43). -/
def Emc.drop (e : Emc) (ratio : Nat) : Emc :=
  { e with lastDown := none, lastLD := none, pairKey := none, gap := ratio, stretch := [], wrongRun := 0,
           overRun := 0, autoPending := false, stampFrom := 0 }

/-- The EMC at ARM (R94, R95). -/
def Emc.arm (e : Emc) (ratio : Nat) : Emc := { e.drop ratio with counts := .zero }

end Sys2Proof.Machine
end

