-- ==== Sys2Proof/Machine/Shade.lean ====
section
/-! DEFINITION. The Shade Unit: triggers, the poll cycle, the head line, the heads' conditions, and the
sample written at a cycle's end (R113 to R126). -/

namespace Sys2Proof.Machine

/-! ### Head entries (R117, R120, R126) -/

/-- One head entry changed. -/
def Shu.changeHead (u : Shu) (h : Fin 4) (f : Head → Head) : Shu := { u with heads := u.heads.set h (f u.heads[h]) }

/-- The number of consecutive failures at which a head is ABSENT (R120). -/
def failureLimit : Nat := 8

/-- A failed poll (R120). -/
def Head.fail (h : Head) : Head :=
  let n := min (h.failures + 1) failureLimit
  { h with failures := n, absent := h.absent || decide (failureLimit ≤ n)
           counts := { h.counts with failures := bump h.counts.failures } }

/-- The status of a head's answer (R115). -/
inductive HeadStatus where
  | ok
  | lamp
  | notReady
deriving DecidableEq, Repr

/-- A head's answer of a status (R120). -/
def Head.answer (h : Head) (st : HeadStatus) : Head :=
  let h := { h with failures := 0, absent := false }
  match st with
  | .ok => { h with lamp := false, counts := { h.counts with ok := bump h.counts.ok } }
  | .lamp => { h with lamp := true, counts := { h.counts with lamp := bump h.counts.lamp } }
  | .notReady => { h with counts := { h.counts with notReady := bump h.counts.notReady } }

/-- The HEAD notices of an entry that has changed (R120): first its condition's, then its lamp flag's (log
entry 17). -/
def headNotices (h : Fin 4) (old new : Head) (seq : Byte) (s : State) : State :=
  let s := if old.absent = new.absent then s
    else raise (.head h (if new.absent then .absent else .restored) seq s.d) s
  if old.lamp = new.lamp then s else raise (.head h (if new.lamp then .lampOn else .lampOff) seq s.d) s

/-! ### The end of a cycle (R121 to R124) -/

/-- The unit's counts for a sample made (R123, R124). -/
def ShuCounts.sampled (c : ShuCounts) (x : Shd) : ShuCounts :=
  { c with samples := bump c.samples
           clamped := if x.clamped then bump c.clamped else c.clamped
           side := if x.side then bump c.side else c.side }

/-- A cycle that has ended: a sample is made from its answers and written, or the miss is counted, and
the unit is IDLE (R121 to R124). -/
def endCycle (c : PollCycle) (s : State) : State :=
  let u := { s.shu with cycle := none, timer := s.shu.timer.stop }
  if s.act.shade.minHeads ≤ c.answers.length then
    let x := combine s.act.shade.sideTolerance c.answers
    writePart .shd c.index (fun r => { r with shd := some x })
      (s.setShu { u with counts := u.counts.sampled x })
  else s.setShu { u with counts := { u.counts with misses := bump u.counts.misses } }

/-- The next head on the list is polled, or the cycle ends when none is left (R119). Its poll goes on the line
behind one already there, be that one's cycle abandoned (log entry 17). -/
def nextPoll (c : PollCycle) (s : State) : State :=
  match c.todo with
  | [] => endCycle { c with inFlight := none } s
  | h :: rest =>
    let u := s.shu.changeHead h fun x => { x with counts := { x.counts with polls := bump x.counts.polls } }
    s.setShu { u with cycle := some { c with todo := rest, inFlight := some h }
                      sending := u.sending ++ [⟨h, c.seq⟩] }

/-- Heads cut short by an overrun (R121, R126). -/
def cutShort : List (Fin 4) → Shu → Shu
  | [], u => u
  | h :: hs, u =>
    cutShort hs (u.changeHead h fun x => { x with counts := { x.counts with cutShort := bump x.counts.cutShort } })

/-- A cycle overrun by a new trigger (R121). -/
def overrun (c : PollCycle) (s : State) : State :=
  let u := cutShort (c.inFlight.toList ++ c.todo) s.shu
  endCycle { c with inFlight := none, todo := [] }
    (s.setShu { u with counts := { u.counts with overruns := bump u.counts.overruns } })

/-! ### Triggers (R118, R119) -/

/-- The number of triggers the queue holds (R118). -/
def triggerCapacity : Nat := 64

/-- A transferred record's trigger: made when its index is a multiple of D_s, at the end of the queue,
or counted as an overflow when the queue is full (R118). -/
def shadeTransfer (index : Nat) (keyT : Pos) (s : State) : State :=
  if index % s.act.shade.divisor = 0 then
    let u := s.shu
    if u.queue.length < triggerCapacity then
      let p := posShift keyT (s.act.shade.headDistance + s.act.shade.patchOffset)
      s.setShu { u with queue := u.queue ++ [⟨index, p⟩] }
    else s.setShu { u with counts := { u.counts with overflows := bump u.counts.overflows } }
  else s

/-- The heads enabled, in ascending address order (R119). -/
def JobSettings.enabledHeads (j : JobSettings) : List (Fin 4) := places4.filter fun i => j.heads[i].enabled

/-- A new cycle for a trigger, with the trigger output's pulse begun (R119). -/
def startCycle (t : Trigger) (s : State) : State :=
  let u := s.shu
  let c : PollCycle := { index := t.index, seq := u.nextSeq, todo := s.act.enabledHeads, inFlight := none,
                         answers := [] }
  nextPoll c (s.setShu { u with nextSeq := u.nextSeq + 1, cycle := some c, triggerOut := true
                                counts := { u.counts with triggers := bump u.counts.triggers } })

/-- A trigger taken: a cycle in flight is overrun and ended first (R119). -/
def takeTrigger (t : Trigger) (s : State) : State :=
  startCycle t (match s.shu.cycle with
    | none => s
    | some c => overrun c s)

/-- The triggers that D has passed taken from the head of the queue, one after another (R119). -/
def takeTriggers : List Trigger → State → State
  | [], s => s
  | t :: ts, s =>
    if passed s.d t.pos then takeTriggers ts (takeTrigger t (s.setShu { s.shu with queue := ts })) else s

/-- The shade unit at a count of D (R119). -/
def shadeSweep (s : State) : State := takeTriggers s.shu.queue s

/-! ### The head line (R115, R119, R120) -/

/-- The start byte of a poll (R115). -/
def pollStart : Byte := 0xE7

/-- The address of a head: its number from 1 (R114). -/
def headAddress (h : Fin 4) : Byte := BitVec.ofNat 8 (h.val + 1)

/-- The four bytes of a poll on the head line: start, address, sequence number, and the check that makes
the sum of bytes 1 to 3 equal 0xFF modulo 256 (R115). -/
def Poll.wire (p : Poll) : List Byte :=
  let address := headAddress p.head
  [pollStart, address, p.seq, 0xFF - (address + p.seq)]

/-- The bytes that the polls waiting on the head line put on it, in order (R114, R115). -/
def Shu.wire (u : Shu) : List Byte := u.sending.flatMap Poll.wire

/-- The last byte of the poll on the line has been sent: the head timeout starts when that poll is the
one in flight (R119). -/
def pollSent (s : State) : State :=
  match s.shu.sending with
  | [] => s
  | p :: rest =>
    let u := { s.shu with sending := rest }
    match u.cycle with
    | some c =>
      if c.inFlight = some p.head ∧ c.seq = p.seq then
        s.setShu { u with timer := u.timer.start s.act.shade.timeout }
      else s.setShu u
    | none => s.setShu u

/-- The start byte of an answer (R115). -/
def answerStart : Byte := 0xE8

/-- The length of an answer in bytes (R115). -/
def answerLength : Nat := 11

/-- The check of an answer: bytes 1 to 10 add up to 0xFF modulo 256 (R115). -/
def answerCheck (bs : List Byte) : Bool := (bs.tail.foldl (· + ·) 0#8) == 0xFF#8

/-- The status of an answer's status byte (R115). -/
def headStatus (b : Byte) : Option HeadStatus :=
  if b = 0 then some .ok else if b = 1 then some .lamp else if b = 2 then some .notReady else none

/-- A field of an answer: `n` bytes from byte `i`. -/
def answerField (bs : List Byte) (i n : Nat) : List Byte := (bs.drop i).take n

/-- The poll in flight answered by an address and a sequence number, while its timeout runs (R115). -/
def Shu.answered (u : Shu) (address seq : Byte) : Option (PollCycle × Fin 4) :=
  match u.cycle with
  | none => none
  | some c => match c.inFlight with
    | none => none
    | some h =>
      if address.toNat = h.val + 1 ∧ seq = c.seq ∧ u.timer.live then some (c, h) else none

/-- The answers gathered after an answer of a head: an OK answer is calibrated and joins them (R120,
R122). -/
def gather (j : JobSettings) (h : Fin 4) (st : HeadStatus) (bs : List Byte) (xs : List Reading) :
    List Reading :=
  match st with
  | .ok => xs ++ [calibrate j.heads[h] (fromLe (answerField bs 4 2)) (fromLeInt (answerField bs 6 2))
                    (fromLeInt (answerField bs 8 2))]
  | .lamp | .notReady => xs

/-- The answer of the head in flight taken: its entry, its readings, and the next poll (R119, R120). -/
def takeAnswer (c : PollCycle) (h : Fin 4) (st : HeadStatus) (bs : List Byte) (s : State) : State :=
  let old := s.shu.heads[h]
  let u := (s.shu.changeHead h fun x => x.answer st)
  let s := headNotices h old (old.answer st) c.seq (s.setShu { u with timer := u.timer.stop })
  nextPoll { c with inFlight := none, answers := gather s.act h st bs c.answers } s

/-- A complete answer: the answer of the poll in flight, a stale one, or a bad frame (R115). -/
def completeAnswer (bs : List Byte) (s : State) : State :=
  let u := s.shu
  match answerCheck bs, headStatus (bs.getD 3 0) with
  | true, some st => match u.answered (bs.getD 1 0) (bs.getD 2 0) with
    | some (c, h) => takeAnswer c h st bs s
    | none => s.setShu { u with counts := { u.counts with stale := bump u.counts.stale } }
  | _, _ => s.setShu { u with counts := { u.counts with bad := bump u.counts.bad } }

/-- A byte received on the head line (R115): a start byte begins an answer, a byte outside an answer is
ignored, and the eleventh byte completes it. -/
def headByte (b : Byte) (s : State) : State :=
  if b = answerStart then s.setShu { s.shu with answer := [b] }
  else if s.shu.answer = [] then s
  else
    let bs := s.shu.answer ++ [b]
    if bs.length < answerLength then s.setShu { s.shu with answer := bs }
    else completeAnswer bs (s.setShu { s.shu with answer := [] })

/-- More than 1 ms between two bytes of an answer: the partial answer is discarded (R115). -/
def headGap (s : State) : State := s.setShu { s.shu with answer := [] }

/-- Expiry of the head timeout: the poll in flight has failed (R119, R120). -/
def headTimeout (s : State) : State :=
  if s.shu.timer.due then
    let s := s.setShu { s.shu with timer := s.shu.timer.expire }
    match s.shu.cycle with
    | none => s
    | some c => match c.inFlight with
      | none => s
      | some h =>
        let old := s.shu.heads[h]
        let s := headNotices h old old.fail c.seq (s.setShu (s.shu.changeHead h Head.fail))
        nextPoll { c with inFlight := none } s
  else s

/-! ### Job orders (R116) -/

/-- The trigger queue emptied and the cycle ended without a write (R116). A poll on the line runs out (log
entry 17). -/
def Shu.drop (u : Shu) : Shu := { u with queue := [], cycle := none, timer := u.timer.stop }

/-- The SHU at ARM: its queue and cycle dropped and every count 0 (R116, R126). -/
def Shu.arm (u : Shu) : Shu :=
  { u.drop with counts := .zero, heads := Vector.ofFn fun i => { u.heads[i] with counts := .zero } }

end Sys2Proof.Machine
end

