-- ==== Sys2Proof/Machine/Tracker.lean ====
section
/-! DEFINITION. The Repeat Tracker: the code match table, key candidates, the routes by which a group
takes an index, records made, windows and their expiry, SEARCH and lock, splices, and the transfer
point (R19 to R39). -/

namespace Sys2Proof.Machine

/-- The RTK with its counts changed. -/
def Rtk.count (t : Rtk) (f : RtkCounts → RtkCounts) : Rtk := { t with counts := f t.counts }

/-! ### The code match table (R21) -/

/-- A field of an entry matches a word (R21). -/
def CodeField.matches (f : CodeField) (w : CodeWord) : Bool := !f.care || w.value == some f.value

/-- An entry matches the cells of a group (R21). -/
def CodeEntry.matches (e : CodeEntry) (cells : List Bool) : Bool :=
  e.active && e.kind.matches (kindWord cells) && e.design.matches (designWord cells) &&
    e.counter.matches (counterWord cells)

/-- The lowest-numbered entry that matches (R21). -/
def JobSettings.decides (j : JobSettings) (cells : List Bool) : Option CodeEntry :=
  j.code.toList.find? fun e => e.matches cells

/-- What an entry's action makes of a group (R21). -/
def CodeAction.outcome : CodeAction → Outcome21
  | .plainRepeat => .plainRepeat
  | .jobMark => .jobMark
  | .ignore => .ignore

/-- What the tracker takes from a print group (R21). -/
def keyGroup (j : JobSettings) (g : PrintGroup) : KeyGroup :=
  let e := j.decides g.cells
  { outcome := match e with
      | none => .unmatched
      | some e => e.action.outcome
    centre := centreSum g.key.lead g.key.trail
    key := g.key
    counter := (counterWord g.cells).value
    design := (designWord g.cells).value
    status := groupStatus g.cells
    counterCare := match e with
      | none => false
      | some e => e.counter.care
    marks := g.marks }

/-! ### Reference length and window (R22, R29) -/

/-- L_ref: the rounded mean of the lengths held, or the nominal repeat (R29). -/
def State.lRef (s : State) : Int :=
  if s.rtk.history = [] then s.act.track.nominalRepeat else mean s.rtk.history

/-- The half-width of a length: the tolerance in percent of it, rounded (R22). -/
def TrackSettings.halfWidth (t : TrackSettings) (length : Int) : Int := roundDiv (length * t.tolerance) 100

/-- The tracker has a window: LOCKED or COASTING. -/
def Tracking.tracks : Tracking → Bool
  | .locked | .coasting => true
  | .idle | .search | .lost => false

/-- The end of a window: expected + 2w. -/
def KeyWindow.limit (w : KeyWindow) : HalfPos := halfShift w.expected (2 * w.halfWidth)

/-- A centre sum within expected ± 2w, ends included (R24). -/
def KeyWindow.holds (w : KeyWindow) (c : HalfPos) : Bool :=
  ((halfDiff c w.expected).natAbs : Int) ≤ 2 * w.halfWidth

/-- The tracking state changed, with its TRACK notice (R39). -/
def setTracking (new : Tracking) (s : State) : State :=
  if s.rtk.state = new then s
  else raise (.track s.rtk.state new s.rtk.nextIndex s.u) (s.setRtk { s.rtk with state := new })

/-- A key candidate offered (R24): the state after it when it is allowed, none when it is refused. -/
def offerKey (c : HalfPos) (s : State) : Option State :=
  match s.rtk.state with
  | .idle | .lost => none
  | .search => some s
  | .locked | .coasting => match s.rtk.window with
    | none => none
    | some w =>
      if !w.claimed && w.holds c then
        some (s.setRtk { s.rtk with window := some { w with claimed := true } })
      else none

/-! ### Splices covered (R36) -/

/-- A repeat about to take an index: its centre sum, what its group gave, and its kind. -/
structure NewRepeat where
  index : Nat
  centre : HalfPos
  counter : Option Nibble
  design : Option Nibble
  status : CodeStatus
  predicted : Bool
  missed : Bool
  jobMark : Bool
  unmatched : Bool
  marks : Option (Mark × Vector (Option Mark) 7)
deriving DecidableEq, Repr

/-- The repeat was seen: neither PREDICTED nor MISSED (R23). -/
def NewRepeat.seen (n : NewRepeat) : Bool := !n.predicted && !n.missed

/-- The position of a splice beyond a repeat's centre sum, in half-counts. -/
def Splice.offset (x : Splice) (c : HalfPos) : Int := halfDiff (half x.pos) c

/-- A WAITING entry is covered by the span from c to c + 2·L_ref (R36). -/
def Splice.covered (x : Splice) (c : HalfPos) (lRef : Int) : Bool :=
  x.phase == .waiting && 0 ≤ x.offset c && x.offset c < 2 * lRef

/-- A WAITING entry tested against a repeat (R36). -/
def Splice.test (x : Splice) (c : HalfPos) (lRef : Int) (stamp : Option Nat) : Splice :=
  if x.phase = .watch then x
  else if x.offset c < 0 then { x with phase := .watch }
  else if x.offset c < 2 * lRef then { x with phase := .watch, stamp := stamp }
  else x

/-- The offset of the first covered entry (R36). -/
def spliceOffset (xs : List Splice) (c : HalfPos) (lRef : Int) : Option Int :=
  (xs.find? fun x => x.covered c lRef).map fun x => x.offset c

/-- The entries tested, with those that left WAITING without a stamp counted (R36, R38). -/
def testSplices (c : HalfPos) (stamp : Option Nat) (s : State) : State :=
  let t := s.rtk
  let tested := t.splices.map fun x => x.test c s.lRef stamp
  let unstamped := (t.splices.zip tested).countP fun p =>
    p.1.phase == .waiting && p.2.phase == .watch && p.2.stamp.isNone
  s.setRtk { t.count (fun k => { k with unstamped := bump k.unstamped unstamped }) with splices := tested }

/-! ### Records (R27, R29, R34) -/

/-- The largest repeat index (R34). -/
def indexMax : Nat := 4294967295

/-- A record can be made for an index: the store has room and the index fits (R34). -/
def State.canRecord (s : State) (index : Nat) : Bool :=
  s.rst.records.length < storeCapacity && index ≤ indexMax

/-- The record of a repeat as it is made (R27). -/
def newRecord (n : NewRepeat) (gap : Bool) (splice : Option Int) : Record :=
  { index := n.index, predicted := n.predicted, missed := n.missed, gapBefore := gap, unmatched := n.unmatched,
    jobMark := n.jobMark, splice, keyU := n.centre, counter := n.counter, design := n.design,
    status := n.status, lU := none, keyT := none, stage := .created, reg := none, emb := none, shd := none,
    wnd := none, remark := 0 }

/-- The store accepts the record: the gap-pending flag is cleared and a store-full episode ends (R27,
R34). -/
def storeRecord (r : Record) (s : State) : State :=
  (s.setRst (s.rst.add r)).setRtk { s.rtk with gapPending := false, storeFull := false }

/-- An unrecorded repeat (R34). -/
def unrecorded (index : Nat) (s : State) : State :=
  let t := s.rtk
  let s' := s.setRtk { t.count (fun k => { k with unrecorded := bump k.unrecorded }) with
                       gapPending := true, storeFull := true }
  if t.storeFull then s' else raise (.storeFull (min index indexMax)) s'

/-- The lengths held with one more; the oldest of 4 leaves (R29). -/
def pushLRef (xs : List Int) (x : Int) : List Int := (if 4 ≤ xs.length then xs.drop 1 else xs) ++ [x]

/-- The window after a key at a centre sum (R29). -/
def State.nextWindow (s : State) (c : HalfPos) : KeyWindow :=
  { expected := halfShift c (2 * s.lRef), halfWidth := s.act.track.halfWidth s.lRef, claimed := false }

/-- The first two steps of R29: L_U of the record before, and the L_ref history. -/
def takeLength (n : NewRepeat) (s : State) : State :=
  match s.rtk.last with
  | none => s
  | some l =>
    if l.index + 1 = n.index then
      let len := roundDiv (halfDiff n.centre l.centre) 2
      let s := if (s.rst.find l.index).isSome then
          writePart .header l.index (fun r => { r with lU := some len }) s
        else s
      if l.seen && n.seen then s.setRtk { s.rtk with history := pushLRef s.rtk.history len } else s
    else s

/-- What every index assignment does (R29). -/
def assignIndex (n : NewRepeat) (s : State) : State :=
  let s := takeLength n s
  let s := s.setRtk { s.rtk with
    last := some ⟨n.index, n.centre, n.counter, n.seen⟩
    nextIndex := min (n.index + 1) indexMax }
  if s.rtk.state.tracks then s.setRtk { s.rtk with window := some (s.nextWindow n.centre) } else s

/-- A repeat takes its index (R27, R29, R34, R36): splices are tested, the record is made or goes
unrecorded, R29 is taken, and the record is handed to the register loops. That R29 comes before the handing
on, and that a repeat which goes unrecorded raises its STORE_FULL notice before the LATE_WRITE notice that
R29's write to a CLOSED record raises, are orders of the model's choice (log entry 13). -/
def assign (n : NewRepeat) (s : State) : State :=
  if s.canRecord n.index then
    let r := newRecord n s.rtk.gapPending (spliceOffset s.rtk.splices n.centre s.lRef)
    let s := assignIndex n (storeRecord r (testSplices n.centre (some n.index) s))
    let s := if n.missed then s.setRtk (s.rtk.count fun k => { k with missed := bump k.missed }) else s
    rluTake r n.marks s
  else assignIndex n (unrecorded n.index (testSplices n.centre none s))

/-- Repeats taken in index order (R26, R29). -/
def assignAll : List NewRepeat → State → State
  | [], s => s
  | n :: ns, s => assignAll ns (assign n s)

/-- A repeat that has no group: PREDICTED or MISSED (R26, R30). -/
def blankRepeat (index : Nat) (c : HalfPos) (missed : Bool) : NewRepeat :=
  { index, centre := c, counter := none, design := none, status := .none, predicted := !missed, missed,
    jobMark := false, unmatched := false, marks := none }

/-- The repeat of a key group. An UNMATCHED record is handed on without station marks (R27). -/
def groupRepeat (index : Nat) (g : KeyGroup) : NewRepeat :=
  { index, centre := g.centre, counter := g.counter, design := g.design, status := g.status,
    predicted := false, missed := false, jobMark := g.outcome == .jobMark,
    unmatched := g.outcome == .unmatched,
    marks := if g.outcome == .unmatched then none else some (g.key, g.marks) }

/-- The MISSED repeats between the last key and a key `a` indices on (R26). -/
def missedRepeats (l : LastKey) (c : HalfPos) (a : Nat) : List NewRepeat :=
  (List.range (a - 1)).map fun i =>
    blankRepeat (l.index + (i + 1)) (halfShift l.centre (roundDiv ((i + 1 : Nat) * halfDiff c l.centre) a)) true

/-- A key record `a` indices after the last key: the MISSED records, the record, and the state LOCKED with
no predictions in a row (R25 to R27). -/
def keyRecord (l : LastKey) (g : KeyGroup) (a : Nat) (s : State) : State :=
  let s := assignAll (missedRepeats l g.centre a) s
  let s := assign (groupRepeat (l.index + a) g) s
  setTracking .locked (s.setRtk { s.rtk with predictedRun := 0 })

/-- The advance by distance: the larger of 1 and round(distance / L_ref) (R26, R31). -/
def State.advance (s : State) (l : LastKey) (c : HalfPos) : Nat :=
  max 1 (roundDiv (halfDiff c l.centre) (2 * s.lRef)).toNat

/-- The jump of the counter route, when the group takes it (R25). -/
def counterJump (l : LastKey) (g : KeyGroup) : Option Nat :=
  match g.counter, l.counter with
  | some x, some y => if g.counterCare then none else some (x - y).toNat
  | _, _ => none

/-! ### Expiry and loss (R30, R31) -/

/-- Entry to LOST, and to SEARCH in the same event (R31). R31, R39 and R70 give the notices of this event no
order: the model raises TRACK of the entry to LOST before the LOOP notices with cause LOST, then the winder's,
and TRACK of SEARCH last (DESIGN CHOICE, log entry 13). -/
def enterLost (s : State) : State :=
  let s := wncLost (rluLost (setTracking .lost s))
  setTracking .search (s.setRtk { s.rtk with run := [], window := none, predictedRun := 0, gapPending := true })

/-- A window's expiry: a PREDICTED record, COASTING, and LOST at the coast limit (R30). -/
def expireWindow (w : KeyWindow) (s : State) : State :=
  match s.rtk.last with
  | none => s
  | some l =>
    let s := assign (blankRepeat (l.index + 1) w.expected false) s
    let s := s.setRtk { s.rtk.count (fun k => { k with predicted := bump k.predicted }) with
                        predictedRun := s.rtk.predictedRun + 1 }
    let s := setTracking .coasting s
    if s.act.track.coastLimit ≤ s.rtk.predictedRun then enterLost s else s

/-- The window has run out at the present U and is not claimed (R30). -/
def State.windowOut (s : State) : Option KeyWindow :=
  match s.rtk.window with
  | none => none
  | some w => if s.rtk.state.tracks && !w.claimed && passedHalf s.u w.limit then some w else none

/-- The expiry of the window at a count of U (R30). -/
def windowSweep (s : State) : State :=
  match s.windowOut with
  | none => s
  | some w => expireWindow w s

/-- A group discarded after its key was allowed: the claim is released, and a window that has already run
out expires at once (R28). -/
def releaseClaim (s : State) : State :=
  match s.rtk.window with
  | none => s
  | some w => windowSweep (s.setRtk { s.rtk with window := some { w with claimed := false } })

/-! ### Groups (R25, R28, R32, R33) -/

/-- An IGNORE group counted (R28, R32). -/
def countIgnored (s : State) : State := s.setRtk (s.rtk.count fun k => { k with ignored := bump k.ignored })

/-- A group delivered in LOCKED or COASTING (R25, R26, R28). -/
def trackGroup (g : KeyGroup) (s : State) : State :=
  if g.outcome = .ignore then releaseClaim (countIgnored s)
  else match s.rtk.last with
    | none => s
    | some l => match counterJump l g with
      | some 0 => releaseClaim (s.setRtk (s.rtk.count fun k => { k with doubleReads := bump k.doubleReads }))
      | some j => keyRecord l g j s
      | none => keyRecord l g (s.advance l g.centre) s

/-- The counters of two groups of a run agree: when both are known and neither deciding entry cares about
the counter, the new one is one more (R32). -/
def countersRun (old new : KeyGroup) : Bool :=
  match old.counter, new.counter with
  | some x, some y => old.counterCare || new.counterCare || y - x == 1
  | _, _ => true

/-- A group continues the run after the newest held group (R32). -/
def continuesRun (t : TrackSettings) (held g : KeyGroup) : Bool :=
  ((halfDiff g.centre held.centre - 2 * t.nominalRepeat).natAbs : Int) ≤ 2 * t.halfWidth t.nominalRepeat &&
    countersRun held g

/-- Groups of SEARCH discarded and counted (R32). -/
def discardRun (n : Nat) (run : List KeyGroup) (s : State) : State :=
  s.setRtk { s.rtk.count (fun k => { k with searchDiscards := bump k.searchDiscards n }) with run := run }

/-- The index of the first record of a new run (R31, R33). -/
def State.lockIndex (s : State) (c : HalfPos) : Nat :=
  match s.rtk.last with
  | none => 0
  | some l => l.index + s.advance l c

/-- Lock: LOCKED is entered and the records of the run's three groups are made (R33). -/
def lock (run : List KeyGroup) (first : HalfPos) (s : State) : State :=
  let i := s.lockIndex first
  let s := setTracking .locked s
  let s := assignAll (run.zipIdx.map fun p => groupRepeat (i + p.2) p.1) s
  s.setRtk { s.rtk with run := [], predictedRun := 0 }

/-- A REPEAT group in SEARCH (R32, R33). -/
def searchRepeat (g : KeyGroup) (s : State) : State :=
  match s.rtk.run with
  | [] => s.setRtk { s.rtk with run := [g] }
  | x :: xs =>
    let run := x :: xs
    if continuesRun s.act.track (run.getLastD g) g then
      if run.length < 2 then s.setRtk { s.rtk with run := run ++ [g] }
      else lock (run ++ [g]) x.centre s
    else discardRun run.length [g] s

/-- A group delivered in SEARCH (R32). -/
def searchGroup (g : KeyGroup) (s : State) : State :=
  match g.outcome with
  | .ignore => countIgnored s
  | .jobMark | .unmatched => discardRun (s.rtk.run.length + 1) [] s
  | .plainRepeat => searchRepeat g s

/-- A print group delivered to the tracker (R14, R21, R23). -/
def takePrintGroup (g : PrintGroup) (s : State) : State :=
  match s.rtk.state with
  | .idle | .lost => s
  | .search => searchGroup (keyGroup s.act g) s
  | .locked | .coasting => trackGroup (keyGroup s.act g) s

/-! ### Splices (R35, R38) -/

/-- The number of entries of the splice queue (R35). -/
def spliceCapacity : Nat := 4

/-- An entry placed by position, after any entry with the same position (R35). -/
def insertSplice (x : Splice) : List Splice → List Splice
  | [] => [x]
  | y :: ys => if posDiff x.pos y.pos < 0 then x :: y :: ys else y :: insertSplice x ys

/-- A pulse on the splice input (R35). -/
def splicePulse (s : State) : State :=
  let p := posShift s.u s.act.track.splicerDistance
  let t := s.rtk
  if t.splices.length < spliceCapacity then
    s.setRtk { t with splices := insertSplice ⟨p, .waiting, none⟩ t.splices }
  else
    liftNip .spliceLost (raise (.spliceLost p)
      (s.setRtk (t.count fun k => { k with lostSplices := bump k.lostSplices })))

/-- One entry handed over to the watch list (R38). -/
def handOver (x : Splice) (s : State) : State :=
  let t := { s.rtk with splices := s.rtk.splices.erase x }
  watchSplice x.stamp (s.setRtk
    (if x.phase = .waiting then t.count fun k => { k with unstamped := bump k.unstamped } else t))

/-- The entries whose transfer point U has passed, in order (R38). -/
def handOvers : List Splice → State → State
  | [], s => s
  | x :: xs, s =>
    if passed s.u (posShift x.pos s.act.track.transferDistance) then handOvers xs (handOver x s)
    else handOvers xs s

/-! ### The transfer point (R37) -/

/-- A record transferred: key_T is the present D (R37), and the Shade Unit makes its trigger (R118). -/
def transfer (r : Record) (s : State) : State :=
  shadeTransfer r.index s.d
    (writePart .header r.index (fun x => { x.request .transferred with keyT := some s.d }) s)

/-- The CREATED records whose transfer point U has passed, oldest first (R37). -/
def transferRun : Nat → State → State
  | 0, s => s
  | k + 1, s => match s.rst.oldestIn .created with
    | none => s
    | some r =>
      if passedHalf s.u (halfShift r.keyU (2 * s.act.track.transferDistance)) then
        transferRun k (transfer r s)
      else s

/-- The transfers at a count of U. -/
def transferSweep (s : State) : State := transferRun s.rst.records.length s

/-- The splices handed over at a count of U. -/
def spliceSweep (s : State) : State := handOvers s.rtk.splices s

/-! ### Job orders (R23, R39) -/

/-- The tracker at ARM (R23, R39). -/
def rtkArm (s : State) : State :=
  let t := s.rtk
  setTracking .search (s.setRtk { t with
    nextIndex := 0, last := none, history := [], run := [], window := none, predictedRun := 0,
    gapPending := false, storeFull := false, counts := .zero })

/-- The tracker at JOB END and JOB ABORT (R23). -/
def rtkIdle (s : State) : State := setTracking .idle (s.setRtk { s.rtk with run := [], window := none })

end Sys2Proof.Machine
end

