-- ==== Sys2Proof/Machine/Layouts.lean ====
section
/-! DEFINITION. What the host sees: the bodies of notices, the answers of the reading orders, and the
pages of STATUS (R182, R184). Where R182 names no width or no mark of absence, log entry 20 says what
stands here. -/

namespace Sys2Proof.Machine

/-! ### Small fields -/

/-- Flags as one byte, bit 0 first. -/
def flagBits : List Bool → Nat
  | [] => 0
  | b :: bs => b.toNat + 2 * flagBits bs

/-- Flags as one byte, bit 0 first. -/
def flagByte (bs : List Bool) : Byte := BitVec.ofNat 8 (flagBits bs)

/-- A position: five bytes. -/
def posBytes (p : Pos) : List Byte := le 5 p.toNat

/-- A position in half-counts: six bytes. -/
def halfBytes (p : HalfPos) : List Byte := le 6 p.toNat

/-- A value that may be absent, marked elsewhere by a presence bit: it reads 0 when absent (R184). -/
def natOr0 (w : Nat) (x : Option Nat) : List Byte := le w (x.getD 0)

/-- A signed value that may be absent, marked elsewhere by a presence bit. -/
def intOr0 (w : Nat) (x : Option Int) : List Byte := leInt w (x.getD 0)

/-- The value that marks a signed field as absent (R184). -/
def absentValue : Int := -32768

/-- A signed field of two bytes marked absent by its value. -/
def intOrMark (x : Option Int) : List Byte := leInt 2 (x.getD absentValue)

/-- An index that may be absent: a presence byte, then the index or 0 (R184). -/
def indexBytes (x : Option Nat) : List Byte := boolByte x.isSome :: natOr0 4 x

/-- A timer: its reload and its current value (R182). -/
def timerBytes (t : Timer) : List Byte := le 4 t.reload ++ le 4 t.current

/-- A list: the number of its entries, then the entries (R182). -/
def listBytes {α : Type} (f : α → List Byte) (xs : List α) : List Byte := le 1 xs.length ++ xs.flatMap f

/-- Counts of two bytes each. -/
def countBytes (xs : List Nat) : List Byte := xs.flatMap (le 2)

/-! ### Codes (R184) -/

/-- Tracking state. -/
def Tracking.code : Tracking → Byte
  | .idle => 0
  | .search => 1
  | .locked => 2
  | .coasting => 3
  | .lost => 4

/-- Loop state. -/
def LoopState.code : LoopState → Byte
  | .off => 0
  | .fill => 1
  | .track => 2
  | .settle => 3
  | .coast => 4
  | .hold => 5

/-- Loop cause. -/
def LoopCause.code : LoopCause → Byte
  | .misses => 0
  | .lost => 1
  | .sample => 2
  | .unstated b => b

/-- Nip state. -/
def NipState.code : NipState → Byte
  | .lifted => 0
  | .engaging => 1
  | .engaged => 2
  | .lifting => 3

/-- Nip cause and last lift cause. -/
def NipCause.code : NipCause → Byte
  | .host => 0
  | .auto => 1
  | .timer => 2
  | .splice => 3
  | .spliceLost => 4
  | .speed => 5
  | .phase => 6
  | .wrongRepeat => 7
  | .job => 8

/-- Part. -/
def Part.code : Part → Byte
  | .header => 0
  | .reg => 1
  | .emb => 2
  | .shd => 3
  | .wnd => 4

/-- Head change. -/
def HeadChange.code : HeadChange → Byte
  | .absent => 0
  | .restored => 1
  | .lampOn => 2
  | .lampOff => 3

/-- Roll mode. -/
def RollMode.code : RollMode → Byte
  | .pattern => 0
  | .length => 1

/-- Wasted cause. -/
def WastedCause.code : WastedCause → Byte
  | .minRoll => 0
  | .abort => 1

/-- Grade. -/
def Grade.code : Grade → Byte
  | .a => 0
  | .b => 1
  | .r => 2

/-- Close cause. -/
def CloseCause.code : CloseCause → Byte
  | .lru => 1
  | .host => 2
  | .job => 3

/-- A fault code as its ASCII character. -/
def FaultCode.code : FaultCode → Byte
  | .digit d => BitVec.ofNat 8 (0x30 + d.val)
  | .timeout => 0x54

/-- Label event. -/
def LabelEvent.code : LabelEvent → Byte
  | .sent => 0
  | .confirmed => 1
  | .fault _ => 2
  | .resent => 3
  | .skipped => 4

/-- The fault code of a label event; 0 when the event is not FAULT. -/
def LabelEvent.faultByte : LabelEvent → Byte
  | .fault c => c.code
  | .sent | .confirmed | .resent | .skipped => 0

/-- Job state. -/
def JobState.code : JobState → Byte
  | .standby => 0
  | .ready => 1
  | .armed => 2
  | .draining => 3

/-- Job cause: the order's kind, 27 DRAINED, 28 START. -/
def JobCause.code : JobCause → Byte
  | .jobLoad => 4
  | .arm => 5
  | .jobEnd => 6
  | .jobAbort => 7
  | .drained => 27
  | .start => 28

/-- Winder state. -/
def WinderState.code : WinderState → Byte
  | .idle => 0
  | .threading => 1
  | .winding => 2
  | .cutArmed => 3
  | .knife => 4
  | .indexing => 5

/-- Cut kind. -/
def CutKind.code : CutKind → Byte
  | .start => 0
  | .target => 1
  | .forced => 2
  | .length => 3
  | .final => 4

/-- Splice phase. -/
def SplicePhase.code : SplicePhase → Byte
  | .waiting => 0
  | .watch => 1

/-- Labeller state. -/
def LabellerState.code : LabellerState → Byte
  | .idle => 0
  | .await => 1
  | .faultHold => 2

/-- Code status. -/
def CodeStatus.code : CodeStatus → Byte
  | .clean => 0
  | .corrected => 1
  | .uncorrectable => 2
  | .none => 3

/-- Stage. -/
def Stage.code : Stage → Byte
  | .created => 0
  | .transferred => 1
  | .downstream => 2
  | .assigned => 3
  | .closed => 4

/-- Label status. -/
def LabelStatus.code : LabelStatus → Byte
  | .none => 0
  | .queued => 1
  | .sent => 2
  | .confirmed => 3
  | .skipped => 4
  | .fault _ => 5

/-- The fault code of a label status; 0 otherwise. -/
def LabelStatus.faultByte : LabelStatus → Byte
  | .fault c => c.code
  | .none | .queued | .sent | .confirmed | .skipped => 0

/-- A number of one to eight as a byte: loops, outputs and heads are numbered from 1. -/
def numberByte (i : Nat) : Byte := BitVec.ofNat 8 (i + 1)

/-! ### Notices (R184) -/

/-- The kind of a notice (R172). -/
def NoticeBody.kind : NoticeBody → Byte
  | .track .. => 1
  | .loop .. => 2
  | .trimSat .. => 3
  | .nip .. => 4
  | .spliceLost .. => 5
  | .spliceLostWatch .. => 5
  | .storeFull .. => 6
  | .lateWrite .. => 7
  | .head .. => 8
  | .rollStart .. => 9
  | .rollCut .. => 10
  | .rollWasted .. => 11
  | .doff .. => 12
  | .stopOn .. => 13
  | .stopOff => 13
  | .graded .. => 14
  | .batchOpen .. => 15
  | .batchClosed .. => 16
  | .label .. => 17
  | .job .. => 18

/-- The fields of a notice in the order its rule names them. -/
def NoticeBody.fields : NoticeBody → List Byte
  | .track old new next u => [old.code, new.code] ++ le 4 next ++ posBytes u
  | .loop i old new cause index => [numberByte i, old.code, new.code, cause.code] ++ le 4 index
  | .trimSat i dropped pending source =>
    numberByte i :: le 2 dropped ++ leInt 2 pending ++ [match source with
      | none => 0
      | some l => numberByte l]
  | .nip old new cause d => [old.code, new.code, cause.code] ++ posBytes d
  | .spliceLost s => posBytes s
  | .spliceLostWatch d stamp => posBytes d ++ indexBytes stamp
  | .storeFull index => le 4 index
  | .lateWrite part index roll => part.code :: le 4 index ++ le 4 roll
  | .head h change seq d => [numberByte h, change.code, seq] ++ posBytes d
  | .rollStart slot roll first target mode design start =>
    le 1 slot ++ le 4 roll ++ le 4 first ++ le 2 target ++ [mode.code] ++ le 1 design.toNat ++ posBytes start
  | .rollCut slot roll count length mode short overlength trackLost extra =>
    le 1 slot ++ le 4 roll ++ le 2 count ++ leInt 4 length ++
      [mode.code, flagByte [short, overlength, trackLost]] ++ le 1 extra
  | .rollWasted roll slot freed cause => le 4 roll ++ le 1 slot ++ le 2 freed ++ [cause.code]
  | .doff none => le 1 255 ++ le 4 0
  | .doff (some (slot, roll)) => le 1 slot ++ le 4 roll
  | .stopOn roll extra => 1 :: le 4 (roll.getD 0) ++ le 1 extra
  | .stopOff => [0]
  | .graded slot roll grade batch defects spread =>
    le 1 slot ++ le 4 roll ++ [grade.code] ++ natOr0 2 (batch.map (·.number)) ++
      natOr0 2 (batch.map (·.deltaE)) ++ le 2 defects ++ natOr0 2 spread
  | .batchOpen number entry l a b roll =>
    le 2 number ++ le 1 entry ++ leInt 2 l ++ leInt 2 a ++ leInt 2 b ++ le 4 roll
  | .batchClosed number entry cause rolls lastRoll =>
    le 2 number ++ le 1 entry ++ [cause.code] ++ le 2 rolls ++ le 4 lastRoll
  | .label slot roll event => le 1 slot ++ le 4 roll ++ [event.code, event.faultByte]
  | .job old new cause => [old.code, new.code, cause.code]

/-- The kind of a notice's frame (R172). -/
def noticeKind : Byte := 255

/-- A notice as a frame (R172, R184). -/
def Notice.frame (n : Notice) : Frame :=
  ⟨noticeKind, 0, n.body.kind :: le 2 n.missed ++ le 4 n.time.toNat ++ n.body.fields⟩

/-- The frame being sent. -/
def Sending.frame : Sending → Frame
  | .answer f => f
  | .notice n => n.frame

/-- The bytes on the line for the frame being sent. -/
def Sending.wire (x : Sending) : List Byte := x.frame.wire

/-! ### REPEAT READ -/

/-- The REG group's bytes, offsets 30 to 44. With the group absent its presence bit is clear, and all of them,
the raw errors too, read 0 (log entry 20). -/
def regBytes : Option Reg → List Byte
  | none => List.replicate 15 0
  | some g => g.errors.toList.flatMap intOrMark ++ [flagByte (g.mask.toList ++ [g.out])]

/-- The EMB group's bytes, offsets 45 to 64. -/
def embBytes : Option Emb → List Byte
  | none => List.replicate 20 0
  | some g =>
    [flagByte [g.seenAt.isSome, g.lD.isSome, g.stretch.isSome, g.nip.isSome, g.phase.isSome],
     flagByte [g.seenAt.any (·.seen), g.nip.getD false, g.wrongRepeat, g.out]] ++
    halfBytes ((g.seenAt.map (·.keyD)).getD 0) ++ intOr0 4 g.lD ++ intOr0 4 g.stretch ++ intOr0 4 g.phase

/-- The SHD group's bytes, offsets 65 to 74. -/
def shdBytes : Option Shd → List Byte
  | none => List.replicate 10 0
  | some g => leInt 2 g.l ++ leInt 2 g.a ++ leInt 2 g.b ++ le 1 g.heads ++ leInt 2 g.spread ++
      [flagByte [g.side, g.clamped]]

/-- The WND group's bytes, offsets 75 to 87. -/
def wndBytes : Option Wnd → List Byte
  | none => List.replicate 13 0
  | some g => (match g.dest with
      | .roll slot number position => le 1 slot ++ le 4 number ++ le 2 position ++ [0]
      | .waste => le 1 255 ++ le 4 0 ++ le 2 0 ++ [1]) ++ posBytes g.cutStart

/-- The REPEAT READ answer's data. -/
def recordBytes (r : Record) : List Byte :=
  le 4 r.index ++
    [flagByte [r.predicted, r.missed, r.gapBefore, r.unmatched, r.jobMark, r.splice.isSome],
     flagByte [r.counter.isSome, r.design.isSome, r.lU.isSome, r.keyT.isSome, r.reg.isSome, r.emb.isSome,
               r.shd.isSome, r.wnd.isSome]] ++
    le 1 ((r.counter.getD 0).toNat + 16 * (r.design.getD 0).toNat) ++
    [r.status.code, r.stage.code] ++ le 1 r.remark ++ intOr0 4 r.splice ++ halfBytes r.keyU ++
    intOr0 4 r.lU ++ posBytes (r.keyT.getD 0) ++ regBytes r.reg ++ embBytes r.emb ++ shdBytes r.shd ++
    wndBytes r.wnd

/-! ### ROLL READ, LOOP READ and BATCH READ -/

/-- The state of a slot. -/
def Slot.code : Slot → Byte
  | .free => 0
  | .used .winding _ => 1
  | .used .cut _ => 2
  | .used .labelPending _ => 3
  | .used .labelled _ => 4

/-- The defect counts. -/
def Defects.list (d : Defects) : List Nat :=
  [d.regOut, d.embOut, d.notEmbossed, d.wrongRepeat, d.tracking, d.side, d.remark, d.repeats]

/-- A roll's bytes, offsets 3 to 63. -/
def rollBytes (r : Roll) : List Byte :=
  [flagByte [r.length.isSome, r.shade.isSome, r.grade.isSome, r.batch.isSome]] ++ le 4 r.number ++
    le 4 r.firstIndex ++ le 2 r.count ++ le 2 r.target ++ [r.mode.code] ++ posBytes r.start ++
    intOr0 4 r.length ++ le 2 r.matchOffset ++ le 1 r.design.toNat ++
    [flagByte [r.short, r.overlength, r.trackLost]] ++ le 1 r.extra ++ countBytes r.defects.list ++
    (match r.shade with
      | none => List.replicate 8 0
      | some x => leInt 2 x.l ++ leInt 2 x.a ++ leInt 2 x.b ++ le 2 x.spread) ++
    le 2 r.samples ++ [(r.grade.map (·.code)).getD 0] ++ natOr0 2 (r.batch.map (·.number)) ++
    natOr0 2 (r.batch.map (·.deltaE)) ++ [r.label.code, r.label.faultByte]

/-- The ROLL READ answer's data. -/
def slotBytes (i : Fin 12) (x : Slot) : List Byte :=
  le 1 i ++ [x.code] ++ (match x with
    | .free => List.replicate 61 0
    | .used _ r => rollBytes r)

/-- The counts of a loop in the order of R79. -/
def LoopCounts.list (c : LoopCounts) : List Nat :=
  [c.good, c.misses, c.clamps, c.corrections, c.limited, c.filterClamps, c.coasts]

/-- A history of samples in 16 bytes. R184 names no value for the entries beyond the history count: the model
puts 0 there (DESIGN CHOICE, log entry 20). -/
def historyBytes (xs : List Int) : List Byte := xs.flatMap (leInt 2) ++ List.replicate (16 - 2 * xs.length) 0

/-- The last output's f and c: a correction that was not formed is marked absent by its value (log entry
20). -/
def outputBytes : Option LastOutput → List Byte
  | none => List.replicate 4 0
  | some o => leInt 2 o.f ++ intOrMark o.c

/-- The flags of the last output. -/
def outputFlags : Option LastOutput → Byte
  | none => 0
  | some o => flagByte [o.fclamp, o.deadband, o.zero, o.limited]

/-- The LOOP READ answer's data. -/
def loopReadBytes (i : Fin 8) (cfg : LoopSettings) (l : Loop) : List Byte :=
  [numberByte i, l.state.code] ++ loopBytes cfg ++ le 1 l.history.length ++ historyBytes l.history ++
    [flagByte [l.lastGood.isSome, l.last.isSome]] ++ intOr0 2 l.lastGood ++ outputBytes l.last ++
    [outputFlags l.last] ++ le 1 l.missRun ++ le 1 l.settle ++ countBytes l.counts.list

/-- The closing stamp, 0 while the batch is OPEN. -/
def Batch.closingStamp (b : Batch) : BitVec 32 :=
  match b.closed with
  | none => 0
  | some (stamp, _) => stamp

/-- The close cause, 0 while the batch is OPEN. -/
def Batch.causeByte (b : Batch) : Byte :=
  match b.closed with
  | none => 0
  | some (_, cause) => cause.code

/-- The BATCH READ answer's data. -/
def batchBytes (g : Gru) (e : Fin 8) : List Byte :=
  le 1 e ++ match g.table[e] with
    | none => List.replicate 38 0
    | some b =>
      [if b.isOpen then 1 else 2] ++ le 2 b.number ++ leInt 2 b.l ++ leInt 2 b.a ++ leInt 2 b.b ++
        le 2 b.rolls ++ le 6 b.length ++ le 4 b.firstRoll ++ le 4 b.lastRoll ++ le 4 b.lastUse.toNat ++
        le 4 b.closingStamp.toNat ++ [b.causeByte] ++
        le 4 (if b.isOpen then g.age b.lastUse else 0)

/-! ### IDENT and STATUS (R182) -/

/-- The IDENT answer's data. -/
def identBytes (s : State) : List Byte := le 2 0x0F7A ++ le 2 4816 ++ [1, s.job.state.code]

/-- The programming in flight: a presence byte, the order's kind, and its slot (255 for DEVICE SET). -/
def programmingBytes : Option Programming → List Byte
  | none => [0, 0, 0]
  | some p => match p.target with
    | .job slot _ => [1, 11] ++ le 1 slot
    | .device _ => [1, 12, 255]

/-- Page 0. An order being decided has left the queue and is not in its length (log entry 20). -/
def page0 (s : State) : List Byte :=
  let l := s.link
  [s.job.state.code] ++ le 4 s.epu.timeBase.toNat ++ le 1 l.orders.length ++ le 1 l.notices.length ++
    le 2 l.missed ++
    countBytes [l.counts.noise, l.counts.badLength, l.counts.badCheck, l.counts.gap, l.counts.badKind,
      l.counts.busy] ++
    timerBytes l.gapTimer ++ timerBytes s.job.timer ++ programmingBytes s.job.prog

/-- The counts of a reader in the order of R18. -/
def ReaderCounts.list (c : ReaderCounts) : List Nat :=
  [c.strays, c.unclaimed, c.droppedEdges, c.corrected, c.uncorrectable]

/-- Page 1 (R182). R18 and R182 give the counts of both readers and no order between the readers: that the print
reader's five stand before the emboss reader's is the model's choice (DESIGN CHOICE, log entry 20). -/
def page1 (s : State) : List Byte :=
  let u := s.epu.u
  let d := s.epu.d
  posBytes u.pos ++ posBytes d.pos ++ posBytes u.highWater ++ posBytes d.highWater ++
    [boolByte u.fresh, boolByte d.fresh] ++ leInt 4 u.speed ++ leInt 4 d.speed ++
    countBytes s.mrd.print.counts.list ++ countBytes s.mrd.emboss.counts.list

/-- A splice queue entry. -/
def spliceBytes (x : Splice) : List Byte := posBytes x.pos ++ [x.phase.code] ++ indexBytes x.stamp

/-- The tracker counts in the order of R39. -/
def RtkCounts.list (c : RtkCounts) : List Nat :=
  [c.ignored, c.doubleReads, c.searchDiscards, c.predicted, c.missed, c.unrecorded, c.lostSplices, c.unstamped]

/-- Page 2. -/
def page2 (s : State) : List Byte :=
  let t := s.rtk
  [t.state.code] ++ le 4 t.nextIndex ++ leInt 4 s.lRef ++ [boolByte t.window.isSome] ++
    halfBytes ((t.window.map (·.expected)).getD 0) ++ le 2 t.predictedRun ++
    listBytes spliceBytes t.splices ++ countBytes t.counts.list

/-- Page 3. -/
def page3 (s : State) : List Byte :=
  let t := s.rst
  countBytes [t.records.length, t.peak, t.late.header, t.late.reg, t.late.emb, t.late.shd, t.late.wnd,
    t.orphans] ++
    [boolByte t.amend.isSome] ++ natOr0 4 (t.amend.map fun a => a.1) ++ natOr0 4 (t.amend.map fun a => a.2)

/-- One trim output's part of page 4. -/
def trimStatus (t : Trim) : List Byte :=
  leInt 2 t.pending ++ leInt 1 t.residue ++ [boolByte t.line] ++ le 4 t.forward.toNat ++
    le 4 t.reverse.toNat ++ le 2 t.saturations ++ le 2 t.dropped

/-- Page 4. R182 gives no width for V; it takes two bytes (log entry 20). -/
def page4 (s : State) : List Byte :=
  places8.flatMap (fun i => trimStatus s.tou.trims[i]) ++ le 2 s.tou.draw.v ++ leInt 4 s.tou.draw.command ++
    le 2 s.tou.draw.clamps

/-- A watch list entry. -/
def watchedBytes (w : Watched) : List Byte := posBytes w.pos ++ indexBytes w.stamp

/-- The counts of the EMC in the order of R112. -/
def EmcCounts.list (c : EmcCounts) : List Nat :=
  [c.unidentified, c.skipped, c.predicted, c.stretchRejects, c.unpaired, c.wrongRepeats, c.missing, c.lostWatch]

/-- Page 5. -/
def page5 (s : State) : List Byte :=
  let e := s.emc
  [e.nip.code] ++ timerBytes e.timer ++ [e.lastLift.code] ++ listBytes watchedBytes e.watch ++
    listBytes (leInt 4) e.stretch ++ [boolByte e.lastLD.isSome] ++ intOr0 4 e.lastLD ++ le 1 e.gap ++
    countBytes [e.wrongRun, e.overRun] ++ countBytes e.counts.list

/-- The counts of a head in the order of R126. -/
def HeadCounts.list (c : HeadCounts) : List Nat := [c.polls, c.ok, c.lamp, c.notReady, c.failures, c.cutShort]

/-- A head entry less its own counts: its condition, failure count and lamp flag (R117). -/
def headStatusBytes (h : Head) : List Byte := [boolByte h.absent] ++ le 2 h.failures ++ [boolByte h.lamp]

/-- The counts of the SHU in the order of R125. -/
def ShuCounts.list (c : ShuCounts) : List Nat :=
  [c.triggers, c.overflows, c.overruns, c.misses, c.samples, c.clamped, c.side, c.stale, c.bad]

/-- The first entry of the trigger queue. -/
def triggerBytes : Option Trigger → List Byte
  | none => List.replicate 10 0
  | some t => 1 :: le 4 t.index ++ posBytes t.pos

/-- Page 6. R117 has a head's own counts in its entry and R182 names them at the page's end, with the shade
counts: they stand there alone, head by head behind the unit's (log entry 20). -/
def page6 (s : State) : List Byte :=
  let u := s.shu
  let flight := u.cycle.bind (·.inFlight)
  le 1 u.queue.length ++ triggerBytes u.queue.head? ++ [boolByte u.cycle.isSome] ++
    indexBytes (u.cycle.map (·.index)) ++
    [boolByte flight.isSome, (flight.map fun h => numberByte h).getD 0] ++
    places4.flatMap (fun i => headStatusBytes u.heads[i]) ++ timerBytes u.timer ++ countBytes u.counts.list ++
    places4.flatMap (fun i => countBytes u.heads[i].counts.list)

/-- The start record, held in THREADING alone, or none (R130, R133). -/
def State.startRecord (s : State) : Option Nat :=
  if s.wnc.state = .threading then
    match s.wnc.start with
    | .none => none
    | .cutOut splice extra => cutOutTarget extra extra (s.rst.records.dropWhile fun r => r.index < splice)
    | .from_ i => (s.untakenFrom i).map (·.index)
  else none

/-- The armed cut. -/
def armedBytes : Option ArmedCut → List Byte
  | none => List.replicate 17 0
  | some a => [1, a.kind.code] ++ indexBytes a.closing ++ posBytes a.cutPos ++ posBytes a.firePos

/-- The counts of the WNC in the order of R150. -/
def WncCounts.list (c : WncCounts) : List Nat :=
  [c.cut, c.short, c.wasted, c.startCuts, c.deferrals, c.startDeferrals, c.doffs, c.ignoredDoffs, c.lengthRolls]

/-- A slot, 255 when absent. -/
def slotOrNone (x : Option (Fin 12)) : List Byte := le 1 ((x.map (·.val)).getD 255)

/-- Page 7. The gate output is 1 when open and 0 when closed, and the knife, turret and stop outputs are 1 when on
(log entry 20). -/
def page7 (s : State) : List Byte :=
  let w := s.wnc
  [w.state.code, boolByte w.gateOpen, boolByte w.knifeOn, boolByte w.turretOn, boolByte w.stopOn] ++
    slotOrNone w.winding ++ armedBytes w.armed ++ indexBytes s.startRecord ++
    [boolByte w.waste.isSome] ++ natOr0 4 (w.waste.map fun a => a.1) ++ natOr0 4 (w.waste.map fun a => a.2) ++
    timerBytes w.knife ++ timerBytes w.turret ++ countBytes w.counts.list

/-- The counts of the GRU in the order of R162. -/
def GruCounts.list (c : GruCounts) : List Nat :=
  [c.gradedA, c.gradedB, c.gradedR, c.unknown, c.opened, c.lru, c.host]

/-- Page 8. -/
def page8 (s : State) : List Byte :=
  le 2 s.gru.nextBatch ++ le 4 s.gru.use.toNat ++ countBytes s.gru.counts.list

/-- The counts of the LBU in the order of R171. -/
def LbuCounts.list (c : LbuCounts) : List Nat :=
  [c.sent, c.resends, c.confirmed, c.skipped, c.faults, c.timeouts, c.ignored, c.bad]

/-- Page 9. -/
def page9 (s : State) : List Byte :=
  let l := s.lbu
  [l.state.code] ++ timerBytes l.timer ++ le 1 l.queue.length ++ slotOrNone l.queue.head? ++
    le 4 ((l.queue.head?.map s.wnc.numberIn).getD 0) ++ listBytes (fun b => [b]) (l.composed.getD []) ++
    countBytes l.counts.list

/-- A page of STATUS; none for a page above 9 (R182). -/
def statusPage (s : State) (page : Nat) : Option (List Byte) :=
  match page with
  | 0 => some (page0 s)
  | 1 => some (page1 s)
  | 2 => some (page2 s)
  | 3 => some (page3 s)
  | 4 => some (page4 s)
  | 5 => some (page5 s)
  | 6 => some (page6 s)
  | 7 => some (page7 s)
  | 8 => some (page8 s)
  | 9 => some (page9 s)
  | _ => none

end Sys2Proof.Machine
end

