-- ==== Sys2Proof/Machine/Link.lean ====
section
/-! DEFINITION. The answers of the Link Unit and its order queue (R172, R174). -/

namespace Sys2Proof.Machine

/-- The link with its counts changed. -/
def Link.count (l : Link) (f : LinkCounts → LinkCounts) : Link := { l with counts := f l.counts }

/-! ### Answers (R174) -/

/-- The part holds fewer answers ready than it can: an order may be taken. -/
def Link.mayAnswer (l : Link) : Bool := l.answers.length < answerCapacity

/-- An answer made ready for the transmitter (R174). -/
def answer (f : Frame) (s : State) : State := s.setLink { s.link with answers := s.link.answers ++ [f] }

/-- An answer made only when fewer than 8 are held (R174). -/
def answerIfRoom (f : Frame) (s : State) : State := if s.link.mayAnswer then answer f s else s

/-! ### The order queue (R174) -/

/-- A complete order joins the queue, or is answered BUSY (R174). -/
def enqueue (f : Frame) (s : State) : State :=
  if s.link.orders.length < orderCapacity then s.setLink { s.link with orders := s.link.orders ++ [f] }
  else answerIfRoom (refusal f.kind f.tag .busy)
    (s.setLink (s.link.count fun c => { c with busy := bump c.busy }))

/-- The front order leaves the queue. -/
def dropFront (s : State) : State := s.setLink { s.link with orders := s.link.orders.tail }

/-- The order to take next, unless 8 answers are held (R174). -/
def frontOrder (s : State) : Option Frame := if s.link.mayAnswer then s.link.orders.head? else none

/-- The arrival of a complete order, and its taking when nothing keeps it waiting (R174): with an empty
queue and fewer than 8 answers held it is taken in the same event; otherwise it joins the queue at its
end, or is answered BUSY. -/
def submit (f : Frame) (act : State → State) (s : State) : State :=
  match s.link.orders with
  | [] => if s.link.mayAnswer then act s else enqueue f s
  | _ :: _ => enqueue f s

/-! ### Order answers -/

/-- An order of a kind and tag accepted, with the data its rule names. -/
def accept (kind tag : Byte) (data : List Byte) (s : State) : State := answer (accepted kind tag data) s

/-- An order of a kind and tag refused: it changes nothing else (R174). -/
def refuse (kind tag : Byte) (r : Refused) (s : State) : State := answer (refusal kind tag r) s

end Sys2Proof.Machine
end

