-- ==== Sys2Proof/Machine/Readers.lean ====
section
/-! DEFINITION. The position counters, the Mark Readers, and what a count of an encoder and an edge of a
scanner bring about (R2, R3, R7 to R18). -/

namespace Sys2Proof.Machine

/-! ### Counters (R2, R3, R4) -/

/-- One count of an encoder (R2, R3). -/
def Counter.count (c : Counter) : Direction → Counter
  | .forward =>
    let p := c.pos + 1
    if passed p c.highWater then { c with pos := p, highWater := p, fresh := true }
    else { c with pos := p, fresh := false }
  | .backward => { c with pos := c.pos - 1, fresh := false }

/-- A speed measurement of a counter (R4). -/
def Counter.measure (c : Counter) : Counter := { c with speed := posDiff c.pos c.measuredAt, measuredAt := c.pos }

/-! ### Readers (R8, R18) -/

/-- A reader with its counts changed. -/
def Reader.count (r : Reader) (f : ReaderCounts → ReaderCounts) : Reader := { r with counts := f r.counts }

/-- A stray (R9). -/
def Reader.stray (r : Reader) : Reader := r.count fun c => { c with strays := bump c.strays }

/-- An unclaimed mark (R10, R12, R16, R17). -/
def Reader.unclaim (r : Reader) : Reader := r.count fun c => { c with unclaimed := bump c.unclaimed }

/-- The corrected and uncorrectable words of a group counted (R14, R16). -/
def Reader.countWords (r : Reader) (cells : List Bool) : Reader :=
  r.count fun c => { c with corrected := bump c.corrected (wordsWith cells .corrected)
                            uncorrectable := bump c.uncorrectable (wordsWith cells .uncorrectable) }

/-- What a count of its counter does to a reader (R8): a backward count drops a held leading edge; when
the counter becomes fresh again the scanner's level is taken. -/
def Reader.onCount (r : Reader) (dir : Direction) (wasFresh isFresh : Bool) : Reader :=
  match dir with
  | .backward => match r.lead with
    | none => r
    | some _ => { r.count (fun c => { c with droppedEdges := bump c.droppedEdges }) with lead := none }
  | .forward => if isFresh && !wasFresh then { r with level := r.scannerDark } else r

/-- The scanner's level after an edge (R8). -/
def Reader.scan (r : Reader) (e : Edge) : Reader := { r with scannerDark := e == .darkGoing }

/-- A stamped edge (R8): the reader, and the edge pair it completes. -/
def Reader.edge (r : Reader) (e : Edge) (p : Pos) : Reader × Option Mark :=
  match e with
  | .darkGoing => ({ r with level := true, lead := some p }, none)
  | .lightGoing => ({ r with level := false, lead := none }, r.lead.map fun l => ⟨l, p⟩)

/-- The reader starts, at ARM (R7, R18). -/
def Reader.arm (r : Reader) : Reader := { r with level := r.scannerDark, lead := none, counts := .zero }

/-- The reader stops (R7). -/
def Reader.stop (r : Reader) : Reader := { r with lead := none }

/-- The readers at ARM (R7, R18). -/
def Mrd.arm (m : Mrd) : Mrd :=
  { print := m.print.arm, emboss := m.emboss.arm, group := none, embossGroup := none, held := [] }

/-- The readers when the job becomes READY (R7). -/
def Mrd.stop (m : Mrd) : Mrd :=
  { print := m.print.stop, emboss := m.emboss.stop, group := none, embossGroup := none, held := [] }

/-! ### Placing pairs (R10, R12, R16) -/

/-- The width of a pair. -/
def Mark.width (m : Mark) : Int := posDiff m.trail m.lead

/-- The centre sum of a pair. -/
def Mark.centre (m : Mark) : HalfPos := centreSum m.lead m.trail

/-- A width within a window, ends included (R9). -/
def Window.holds (w : Window) (width : Int) : Bool := inRangeInt w.lo w.hi width

/-- A centre in the code area, relative to the key (R11). -/
def ReaderSettings.inCode (r : ReaderSettings) (c : Int) : Bool := inRangeInt r.codeLo r.codeHi c

/-- The station whose capture range holds a centre relative to the key (R11). -/
def ReaderSettings.stationAt (r : ReaderSettings) (c : Int) : Option (Fin 7) :=
  r.places.find? fun i => inRangeInt (r.captureLo i) (r.captureHi i) c

/-- The print reader replaced. -/
def setPrint (r : Reader) (s : State) : State := s.setMrd { s.mrd with print := r }

/-- The emboss reader replaced. -/
def setEmboss (r : Reader) (s : State) : State := s.setMrd { s.mrd with emboss := r }

/-- An empty set of station marks. -/
def noMarks : Vector (Option Mark) 7 := #v[none, none, none, none, none, none, none]

/-- A pair on the print reader while no group is open (R10). -/
def keyCandidate (m : Mark) (s : State) : State :=
  if s.act.reader.key.holds m.width then
    match offerKey m.centre s with
    | some s => s.setMrd { s.mrd with group := some ⟨m, noMarks, []⟩ }
    | none => setPrint s.mrd.print.unclaim s
  else setPrint s.mrd.print.stray s

/-- A pair placed in the open print group (R12). -/
def placePair (g : PrintGroup) (m : Mark) (s : State) : State :=
  let cfg := s.act.reader
  let c := halfDiff m.centre g.key.centre
  if cfg.inCode c then s
  else match cfg.stationAt c with
    | some i =>
      if cfg.station.holds m.width then
        match g.marks[i] with
        | none => s.setMrd { s.mrd with group := some { g with marks := g.marks.set i (some m) } }
        | some _ => setPrint s.mrd.print.unclaim s
      else setPrint s.mrd.print.stray s
    | none =>
      if cfg.key.holds m.width then setPrint s.mrd.print.unclaim s else setPrint s.mrd.print.stray s

/-- A pair completed on the print reader (R10, R12). -/
def printPair (m : Mark) (s : State) : State :=
  match s.mrd.group with
  | none => keyCandidate m s
  | some g => placePair g m s

/-- The number of fiducials held (R17). -/
def heldCapacity : Nat := 4

/-- A fiducial completed while an emboss group is open (R17). -/
def holdFiducial (m : Mark) (s : State) : State :=
  if s.mrd.held.length < heldCapacity then s.setMrd { s.mrd with held := s.mrd.held ++ [m] }
  else setEmboss s.mrd.emboss.unclaim s

/-- A pair completed on the emboss reader (R16). -/
def embossPair (m : Mark) (s : State) : State :=
  let cfg := s.act.reader
  match s.mrd.embossGroup with
  | none =>
    if cfg.key.holds m.width then s.setMrd { s.mrd with embossGroup := some ⟨m, []⟩ }
    else if cfg.fiducial.holds m.width then takeFiducialMark m s
    else setEmboss s.mrd.emboss.stray s
  | some g =>
    if cfg.inCode (halfDiff m.centre g.key.centre) then s
    else if cfg.fiducial.holds m.width then holdFiducial m s
    else if cfg.key.holds m.width then setEmboss s.mrd.emboss.unclaim s
    else setEmboss s.mrd.emboss.stray s

/-- An edge of the print scanner (R7, R8). -/
def printEdge (e : Edge) (s : State) : State :=
  let r := s.mrd.print.scan e
  if s.lineRuns && s.epu.u.fresh then
    let out := r.edge e s.u
    match out.2 with
    | none => setPrint out.1 s
    | some m => printPair m (setPrint out.1 s)
  else setPrint r s

/-- An edge of the emboss scanner (R7, R8). -/
def embossEdge (e : Edge) (s : State) : State :=
  let r := s.mrd.emboss.scan e
  if s.lineRuns && s.epu.d.fresh then
    let out := r.edge e s.d
    match out.2 with
    | none => setEmboss out.1 s
    | some m => embossPair m (setEmboss out.1 s)
  else setEmboss r s

/-! ### Cells and completion (R13, R14, R16, R17) -/

/-- The number of code cells (R13). -/
def cellCount : Nat := 24

/-- The cells reached at a position sampled with the level (R13). -/
def sampleCells (cfg : ReaderSettings) (key : HalfPos) (p : Pos) (level : Bool) : Nat → List Bool → List Bool
  | 0, cells => cells
  | k + 1, cells =>
    if cells.length < cellCount ∧ reachedHalf p (halfShift key (cfg.cellAt cells.length)) then
      sampleCells cfg key p level k (cells ++ [level])
    else cells

/-- The open print group at a count of U: its cells, and its completion and delivery (R13, R14). -/
def printGroupSweep (s : State) : State :=
  match s.mrd.group with
  | none => s
  | some g =>
    if s.epu.u.fresh then
      let cfg := s.act.reader
      let g := { g with cells := sampleCells cfg g.key.centre s.u s.mrd.print.level cellCount g.cells }
      if passedHalf s.u (halfShift g.key.centre cfg.groupEnd) then
        takePrintGroup g (s.setMrd { s.mrd with group := none, print := s.mrd.print.countWords g.cells })
      else s.setMrd { s.mrd with group := some g }
    else s

/-- The open emboss group at a count of D: its cells, its completion, and the held fiducials after it
(R16, R17). -/
def embossGroupSweep (s : State) : State :=
  match s.mrd.embossGroup with
  | none => s
  | some g =>
    if s.epu.d.fresh then
      let cfg := s.act.reader
      let g := { g with cells := sampleCells cfg g.key.centre s.d s.mrd.emboss.level cellCount g.cells }
      if passedHalf s.d (halfShift g.key.centre cfg.lastCell) then
        let held := s.mrd.held
        let s := takeEmbossGroup g (s.setMrd { s.mrd with
          embossGroup := none, held := [], emboss := s.mrd.emboss.countWords g.cells })
        held.foldl (fun s m => takeFiducialMark m s) s
      else s.setMrd { s.mrd with embossGroup := some g }
    else s

/-! ### A count of an encoder (R2) -/

/-- The counter U and the print reader at a count (R2, R3, R8). -/
def countU (dir : Direction) (s : State) : State :=
  let c := s.epu.u.count dir
  (setPrint (s.mrd.print.onCount dir s.epu.u.fresh c.fresh) s).setEpu { s.epu with u := c }

/-- The counter D and the emboss reader at a count (R2, R3, R8). -/
def countD (dir : Direction) (s : State) : State :=
  let c := s.epu.d.count dir
  (setEmboss (s.mrd.emboss.onCount dir s.epu.d.fresh c.fresh) s).setEpu { s.epu with d := c }

/-- Everything the manual places at a count of U, in this model's order: the print group, the window,
the transfers, the splices (R13, R14, R30, R37, R38). -/
def printCount (dir : Direction) (s : State) : State :=
  spliceSweep (transferSweep (windowSweep (printGroupSweep (countU dir s))))

/-- Everything the manual places at a count of D, in this model's order: the emboss group and its held
fiducials, the records unseen, the splice watch list, the stamps at the nip, the shade triggers, the
winder (R16, R97, R108, R110, R119, R131 to R147). -/
def windCount (dir : Direction) (s : State) : State :=
  wncSettle (shadeSweep (stampSweep (watchSweep (unseenSweep (embossGroupSweep (countD dir s))))))

end Sys2Proof.Machine
end

