-- ==== Sys2Proof/Machine/Job.lean ====
section
/-! DEFINITION. Job control: the job state, the active settings, the job store, and the cold reset (R177
to R183). -/

namespace Sys2Proof.Machine

/-! ### The job state (R177) -/

/-- The job state changed, with its JOB notice (R177). -/
def setJobState (new : JobState) (cause : JobCause) (s : State) : State :=
  if s.job.state = new then s
  else raise (.job s.job.state new cause) (s.setJob { s.job with state := new })

/-- A slot holds a roll that is not finished. -/
def Slot.busy : Slot → Bool
  | .free => false
  | .used .labelled _ => false
  | .used .winding _ => true
  | .used .cut _ => true
  | .used .labelPending _ => true

/-- The winder has drained: it is IDLE and no slot is WINDING, CUT or LABEL_PENDING (R147). -/
def State.drained (s : State) : Bool :=
  s.wnc.state == .idle && slotList.all fun i => !s.wnc.slots[i].busy

/-- What the end of draining brings (R7, R106, R160, R177): the readers stop, the nip is lifted with cause
JOB, every OPEN batch is closed, and the job state is READY. -/
def endDraining (s : State) : State :=
  setJobState .ready .drained
    (closeJobBatches (liftNip .job (s.setMrd s.mrd.stop)))

/-- The drained report of the winder, when the job is DRAINING (R147, R177). -/
def checkDrained (s : State) : State :=
  if s.job.state = .draining ∧ s.drained then endDraining s else s

/-! ### The active settings (R178, R179) -/

/-- The reloads that timers take from their settings (R6). The nip timer's follows the transition started. -/
def syncReloads (s : State) : State :=
  let j := s.act
  let s := s.setWnc { s.wnc with knife := s.wnc.knife.setReload j.winder.knifeTime
                                 turret := s.wnc.turret.setReload j.winder.turretTime }
  let s := s.setShu { s.shu with timer := s.shu.timer.setReload j.shade.timeout }
  s.setLbu { s.lbu with timer := s.lbu.timer.setReload j.label.replyTime }

/-- The active settings replaced: loops beyond N are set OFF (R59), the reloads follow (R6), and every watched
splice holds whether D has passed its lift point under the new settings (R108, log entry 4). -/
def applySettings (j : JobSettings) (s : State) : State := refreshWatch (syncReloads (dropLoops (s.setAct j)))

/-- A change of direction polarity on an output whose P is not 0 (R81). -/
def State.polarityHeld (s : State) (j : JobSettings) : Bool :=
  places8.any fun i => s.act.trims[i].inverted != j.trims[i].inverted && s.tou.trims[i].pending != 0

/-- The job is ARMED or DRAINING. -/
def JobState.onLine : JobState → Bool
  | .armed | .draining => true
  | .standby | .ready => false

/-- A slot number of an order (R177, R181). -/
def jobSlot (b : Byte) : Option (Fin 4) := if h : b.toNat < 4 then some ⟨b.toNat, h⟩ else none

/-- JOB LOAD (R177): STATE, then VALUE, then NOT_FOUND, then what R9, R22 and R81 refuse. -/
def decideJobLoad (tag slot : Byte) (s : State) : State :=
  if s.job.state.onLine then refuse 4 tag .state s
  else match jobSlot slot with
    | none => refuse 4 tag .value s
    | some i => match s.store.jobs[i] with
      | none => refuse 4 tag .notFound s
      | some j =>
        if !j.valid then refuse 4 tag .value s
        else if s.polarityHeld j then refuse 4 tag .state s
        else accept 4 tag [] (setJobState .ready .jobLoad (applySettings j s))

/-- The refusal of a JOB SET that would make these settings active (R179, R81). -/
def setRefusal (s : State) (j : JobSettings) : Option Refused :=
  if !j.valid then some .value
  else if s.job.state.onLine && !sameGeometry s.act j then some .state
  else if s.polarityHeld j then some .state
  else none

/-- JOB SET (R179): VALUE for the group number, LENGTH, VALUE, STATE, in that order. -/
def decideJobSet (tag group : Byte) (contents : List Byte) (s : State) : State :=
  match groupOf group.toNat with
  | none => refuse 9 tag .value s
  | some .code => refuse 9 tag .value s
  | some g =>
    if contents.length ≠ g.size then refuse 9 tag .length s
    else match setGroup s.act contents g with
      | none => refuse 9 tag .value s
      | some j => match setRefusal s j with
        | some r => refuse 9 tag r s
        | none => accept 9 tag [] (applySettings j s)

/-- The settings a JOB READ names: those of a slot, or ACTIVE (R179, R184). -/
def readSource (source : Byte) (s : State) : Except Refused JobSettings :=
  if source = 4 then .ok s.act
  else match jobSlot source with
    | none => .error .value
    | some i => match s.store.jobs[i] with
      | none => .error .notFound
      | some j => .ok j

/-- JOB READ (R179). -/
def decideJobRead (tag source group : Byte) (s : State) : State :=
  match groupOf group.toNat with
  | none => refuse 10 tag .value s
  | some g => match readSource source s with
    | .error r => refuse 10 tag r s
    | .ok j => accept 10 tag (groupBytes j g) s

/-! ### The job store (R180, R181) -/

/-- A job record. -/
def JobStore.setJob (t : JobStore) (i : Fin 4) (j : Option JobSettings) : JobStore :=
  { t with jobs := t.jobs.set i j }

/-- A programming starts: the record's valid mark is cleared and the timer runs (R181). -/
def startProgramming (target : ProgTarget) (tag : Byte) (units : Nat) (s : State) : State :=
  let s := s.setStore (match target with
    | .job i _ => s.store.setJob i none
    | .device _ => { s.store with device := none })
  s.setJob { s.job with prog := some ⟨target, tag⟩, timer := s.job.timer.start units }

/-- JOB STORE (R181). -/
def decideJobStore (tag slot : Byte) (s : State) : State :=
  match jobSlot slot with
  | none => refuse 11 tag .value s
  | some i =>
    if s.job.prog.isSome then refuse 11 tag .busy s
    else startProgramming (.job i s.act) tag 300 s

/-- The device record of DEVICE SET's values (R181, R184). -/
def deviceOf (rate startup : Byte) : Option Device :=
  match jobSlot rate with
  | none => none
  | some r =>
    if startup = 255 then some ⟨r, none⟩
    else match jobSlot startup with
      | none => none
      | some i => some ⟨r, some i⟩

/-- DEVICE SET (R181). -/
def decideDeviceSet (tag rate startup : Byte) (s : State) : State :=
  match deviceOf rate startup with
  | none => refuse 12 tag .value s
  | some d =>
    if s.job.prog.isSome then refuse 12 tag .busy s
    else startProgramming (.device d) tag 100 s

/-- The order kind of a programming. -/
def ProgTarget.kind : ProgTarget → Byte
  | .job _ _ => 11
  | .device _ => 12

/-- The record written with its valid mark (R181). -/
def JobStore.program (t : JobStore) : ProgTarget → JobStore
  | .job i j => t.setJob i (some j)
  | .device d => { t with device := some d }

/-- The end of a programming: the record is written and the answer made ready, or kept while 8 answers are
held (R174, R181). -/
def endProgramming (p : Programming) (s : State) : State :=
  let f := accepted p.target.kind p.tag []
  let s := (s.setStore (s.store.program p.target)).setJob { s.job with prog := none }
  if s.link.mayAnswer then answer f s else s.setJob { s.job with waiting := some f }

/-- Expiry of the store programming timer (R181). -/
def programmingExpiry (s : State) : State :=
  if s.job.timer.due then
    let s := s.setJob { s.job with timer := s.job.timer.expire }
    match s.job.prog with
    | none => s
    | some p => endProgramming p s
  else s

/-! ### Cold reset (R183) -/

/-- A reader at a cold reset: the level of its scanner is what the scanner sees. -/
def Reader.cold (r : Reader) : Reader := { Reader.reset with scannerDark := r.scannerDark }

/-- The settings that a start-up loads (R183). -/
def JobStore.startup (t : JobStore) : Option JobSettings :=
  match t.device with
  | none => none
  | some d => match d.startup with
    | none => none
    | some i => (t.jobs[i]).filter JobSettings.valid

/-- The values that stand after a cold reset as the active settings give them (R6, R129, R130, R152). R94's E
for g is the one in force after start-up (log entry 35). -/
def startWith (j : JobSettings) (s : State) : State :=
  let s := syncReloads (s.setAct j)
  let s := s.setEmc { s.emc with timer := .idle j.emboss.engageTime, gap := j.emboss.ratio }
  let s := s.setWnc { s.wnc with nextRoll := j.winder.firstRoll, design := j.winder.design
                                 rollTarget := j.winder.targetLength }
  s.setGru { s.gru with nextBatch := j.grade.firstBatch }

/-- Every block at its cold-reset values, before the device record is read. What no reset touches stays: the
job store, the levels at the scanners, and the model's own counter and queue. A label being transmitted is
dropped (log entry 21). A host link frame being sent, the answers ready and an answer kept for room are
dropped, and the transmitter is free (DESIGN CHOICE, log entry 42). A loop taken out of COAST raises no LOOP
notice, tracking taken to IDLE no TRACK notice and a nip taken to LIFTED no NIP notice; a head taken from
ABSENT to PRESENT, or whose lamp flag is cleared, raises no HEAD notice (DESIGN CHOICE, log entry 35); and the
draw period in flight ends there, the period counter going to 0 with the high time of midscale at once (log
entry 35). -/
def coldBase (s : State) : State :=
  { State.reset with
    mrd := { State.reset.mrd with print := s.mrd.print.cold, emboss := s.mrd.emboss.cold }
    link := { State.reset.link with sending := none }
    store := s.store, free := s.free, pending := s.pending }

/-- A cold reset clears a stop request that was set, and R143 raises its STOP notice for that too. It comes
behind the START notice, which R183 has queued first (log entry 35). -/
def noteStopCleared (was : Bool) (s : State) : State := if was then raise .stopOff s else s

/-- A cold reset (R183). -/
def coldReset (s : State) : State :=
  let b := coldBase s
  let b := b.setLink { b.link with rate := (s.store.device.map (·.rate)).getD 1 }
  let started := s.store.startup
  let b := match started with
    | none => b
    | some j => (startWith j b).setJob { b.job with state := .ready }
  pump (noteStopCleared s.wnc.stopOn (raise (.job .standby b.job.state .start) b))

/-! ### Job orders (R177) -/

/-- ARM (R177): each block takes its ARM values. -/
def armJob (s : State) : State :=
  let s := s.setRst s.rst.empty.clearCounts
  let s := s.setMrd s.mrd.arm
  let s := rtkArm s
  let s := loopsArm s
  let s := s.setTou s.tou.arm
  let s := s.setEmc (s.emc.arm s.act.emboss.ratio)
  let s := s.setShu s.shu.arm
  let s := wncArm s
  let s := s.setGru { s.gru with counts := .zero }
  let s := s.setLbu { s.lbu with counts := .zero }
  setJobState .armed .arm s

/-- ARM as an order (R177). -/
def decideArm (tag : Byte) (s : State) : State :=
  if s.job.state = .ready then accept 5 tag [] (armJob s) else refuse 5 tag .state s

/-- JOB END's effect (R147, R177): the TRACK notice of tracking's IDLE, the JOB notice of DRAINING, and then the
winder's end with its notices, an order of the model's choice (log entry 13). -/
def endJob (s : State) : State :=
  checkDrained (wncJobEnd (setJobState .draining .jobEnd (rtkIdle s)))

/-- JOB END as an order (R177). -/
def decideJobEnd (tag : Byte) (s : State) : State :=
  if s.job.state = .armed then accept 6 tag [] (endJob s) else refuse 6 tag .state s

/-- JOB ABORT's actions (R177). -/
def abortJob (s : State) : State :=
  let s := loopsAbort s
  let s := s.setTou s.tou.abort
  let s := liftNip .job s
  let s := s.setEmc (s.emc.drop s.act.emboss.ratio)
  let s := s.setShu s.shu.drop
  let s := wncAbort s
  let s := closeJobBatches s
  let s := s.setLbu s.lbu.abort
  let s := rtkIdle s
  let s := s.setRst s.rst.empty
  let s := s.setMrd s.mrd.stop
  setJobState .ready .jobAbort s

/-- JOB ABORT as an order (R177). -/
def decideJobAbort (tag : Byte) (s : State) : State :=
  if s.job.state.onLine then accept 7 tag [] (abortJob s) else refuse 7 tag .state s

/-- JOB CLEAR's effect (R52, R54, R116, R128, R129, R152, R170, R177). -/
def clearJob (s : State) : State :=
  let s := s.setWnc (s.wnc.clear s.act.winder.firstRoll)
  let s := s.setGru (s.gru.clear s.act.grade.firstBatch)
  let s := s.setShu s.shu.drop
  let s := s.setLbu s.lbu.abort
  s.setRst { s.rst.empty with amend := none }

/-- JOB CLEAR as an order (R177). -/
def decideJobClear (tag : Byte) (s : State) : State :=
  if s.job.state = .ready then accept 8 tag [] (clearJob s) else refuse 8 tag .state s

end Sys2Proof.Machine
end

