-- ==== Sys2Proof/Machine/Orders.lean ====
section
/-! DEFINITION. The meanings of the orders: one definition for each order of the host link (R172, R184),
each given its chance at the order queue by `submit` (R174). -/

namespace Sys2Proof.Machine

/-! ### Decisions of the orders of the blocks -/

/-- IDENT (R182). -/
def decideIdent (tag : Byte) (s : State) : State := accept 1 tag (identBytes s) s

/-- RESTART (R182): the cold reset follows when this answer has been transmitted. -/
def decideRestart (tag : Byte) (s : State) : State := accept 3 tag [] s

/-- STATUS (R182). -/
def decideStatus (tag page : Byte) (s : State) : State :=
  match statusPage s page.toNat with
  | none => refuse 2 tag .value s
  | some data => accept 2 tag data s

/-- CODE SET (R20). -/
def decideCodeSet (tag entry active kind design counter : Byte) (s : State) : State :=
  if h : entry.toNat < 8 then
    match readCodeEntry active kind design counter with
    | none => refuse 13 tag .value s
    | some e => accept 13 tag [] (s.setAct { s.act with code := s.act.code.set entry.toNat e h })
  else refuse 13 tag .value s

/-- The place of a loop or an output numbered 1 to 8. -/
def placeOf (b : Byte) : Option (Fin 8) :=
  if h : 1 ≤ b.toNat ∧ b.toNat ≤ 8 then some ⟨b.toNat - 1, by omega⟩ else none

/-- The actions of LOOP SET (R75). -/
inductive LoopAction where
  | on
  | off
  | hold
  | release
deriving DecidableEq, Repr

/-- The action of a code (R184). -/
def loopAction (b : Byte) : Option LoopAction :=
  if b = 0 then some .on else if b = 1 then some .off else if b = 2 then some .hold
  else if b = 3 then some .release else none

/-- LOOP SET on an existing loop (R75): the state after it, or none when it is refused STATE. -/
def loopSet (i : Fin 8) (a : LoopAction) (s : State) : Option State :=
  let l := s.rlu.loops[i]
  match a with
  | .on => some (if l.state = .off then setLoop i (l.restart .fill) s else s)
  | .off => some (setLoopOff i s)
  | .hold => match l.state with
    | .off => none
    | .hold => some s
    | .fill | .track | .settle | .coast =>
      some (leaveCoastNotice i l.state .hold (setLoop i { l with state := .hold, settle := 0 } s))
  | .release => match l.state with
    | .hold =>
      let full := l.full (s.act.filter s.act.loops[i].filterSet)
      some (setLoop i { l with state := if full then .track else .fill } s)
    | .off | .fill | .track | .settle | .coast => none

/-- LOOP SET (R75). -/
def decideLoopSet (tag loop action : Byte) (s : State) : State :=
  match placeOf loop, loopAction action with
  | some i, some a =>
    if s.act.loopExists i then
      match loopSet i a s with
      | none => refuse 14 tag .state s
      | some t => accept 14 tag [] t
    else refuse 14 tag .value s
  | _, _ => refuse 14 tag .value s

/-- LOOP READ (R76). -/
def decideLoopRead (tag loop : Byte) (s : State) : State :=
  match placeOf loop with
  | none => refuse 15 tag .value s
  | some i => accept 15 tag (loopReadBytes i s.act.loops[i] s.rlu.loops[i]) s

/-- The largest number of steps of a jog (R88). -/
def jogMax : Nat := 2047

/-- A loop in this state lets its output be jogged (R88). -/
def LoopState.mayJog : LoopState → Bool
  | .off | .hold => true
  | .fill | .track | .settle | .coast => false

/-- TRIM JOG (R88). -/
def decideTrimJog (tag output : Byte) (steps : BitVec 16) (s : State) : State :=
  match placeOf output with
  | none => refuse 16 tag .value s
  | some i =>
    if jogMax < steps.toInt.natAbs then refuse 16 tag .value s
    else if s.rlu.loops[i].state.mayJog then accept 16 tag [] (mergeSteps i steps.toInt none s)
    else refuse 16 tag .state s

/-- ENGAGE (R107). -/
def decideEngage (tag : Byte) (s : State) : State :=
  if !s.engageState then refuse 17 tag .state s
  else if !s.clear then refuse 17 tag .clearance s
  else accept 17 tag [] (startEngage .host s)

/-- LIFT (R106). -/
def decideLift (tag : Byte) (s : State) : State := accept 18 tag [] (liftNip .host s)

/-- A CLOSED record's remark may be set: its roll is in CUT in its slot and within the amend window (R53). -/
def State.amendable (s : State) (r : Record) : Bool :=
  match r.wnd with
  | some ⟨.roll slot number _, _⟩ => match s.wnc.slots[slot] with
    | .used .cut roll => roll.number == number && s.rst.mayAmend number
    | _ => false
  | _ => false

/-- REMARK (R53). -/
def decideRemark (tag : Byte) (index : BitVec 32) (value : Byte) (s : State) : State :=
  if 15 < value.toNat then refuse 19 tag .value s
  else match s.rst.find index.toNat with
    | none => refuse 19 tag .notFound s
    | some r =>
      if r.stage != .closed || s.amendable r then
        accept 19 tag [] (s.setRst (s.rst.update index.toNat fun x => { x with remark := value.toNat }))
      else refuse 19 tag .protected_ s

/-- AMEND WINDOW (R54). -/
def decideAmendWindow (tag : Byte) (first last : BitVec 32) (s : State) : State :=
  let window := if first.toNat ≤ last.toNat then some (first.toNat, last.toNat) else none
  accept 20 tag [] (s.setRst { s.rst with amend := window })

/-- The record a selector names (R55); none for a selector that is not listed. -/
def selectRecord (t : Rst) (selector : Byte) (index : Nat) : Option (Option Record) :=
  match selector.toNat with
  | 0 => some (t.find index)
  | 1 => some t.records.head?
  | 2 => some t.newest
  | 3 => some (t.fromIndex (index + 1))
  | _ => none

/-- REPEAT READ (R55). -/
def decideRepeatRead (tag selector : Byte) (index : BitVec 32) (s : State) : State :=
  match selectRecord s.rst selector index.toNat with
  | none => refuse 21 tag .value s
  | some none => refuse 21 tag .notFound s
  | some (some r) => accept 21 tag (recordBytes r) s

/-- ROLL READ (R149). -/
def decideRollRead (tag choice : Byte) (number : BitVec 32) (s : State) : State :=
  if choice = 0 then
    if h : number.toNat < 12 then
      accept 22 tag (slotBytes ⟨number.toNat, h⟩ s.wnc.slots[number.toNat]) s
    else refuse 22 tag .value s
  else if choice = 1 then
    match s.wnc.slotOfRoll number.toNat with
    | none => refuse 22 tag .notFound s
    | some i => accept 22 tag (slotBytes i s.wnc.slots[i]) s
  else refuse 22 tag .value s

/-- BATCH READ (R161). -/
def decideBatchRead (tag choice : Byte) (number : BitVec 16) (s : State) : State :=
  if choice = 0 then
    if h : number.toNat < 8 then accept 23 tag (batchBytes s.gru ⟨number.toNat, h⟩) s
    else refuse 23 tag .value s
  else if choice = 1 then
    match s.gru.entryOf number.toNat with
    | none => refuse 23 tag .notFound s
    | some e => accept 23 tag (batchBytes s.gru e) s
  else refuse 23 tag .value s

/-- BATCH CLOSE (R160). -/
def decideBatchClose (tag : Byte) (number : BitVec 16) (s : State) : State :=
  if number = 0 then refuse 24 tag .value s
  else match s.gru.entryOf number.toNat with
    | none => refuse 24 tag .notFound s
    | some e =>
      if openEntry s.gru.table[e] then accept 24 tag [] (closeBatch e .host s)
      else refuse 24 tag .state s

/-- LABEL RESEND (R169). -/
def decideLabelResend (tag : Byte) (s : State) : State :=
  if s.lbu.state = .faultHold then
    accept 25 tag [] (sendHead .resent (s.setLbu (s.lbu.count fun c => { c with resends := bump c.resends })))
  else refuse 25 tag .state s

/-- LABEL SKIP (R169). -/
def decideLabelSkip (tag : Byte) (s : State) : State :=
  if s.lbu.state = .faultHold then
    accept 26 tag [] (checkDrained (finishHead .skipped .skipped
      (s.setLbu (s.lbu.count fun c => { c with skipped := bump c.skipped }))))
  else refuse 26 tag .state s

/-! ### Meanings -/

/-- IDENT (R182). -/
def execIdent (tag : Byte) (s : State) : Host.Outcome State Fault Refusal :=
  done (submit ⟨1, tag, []⟩ (decideIdent tag) s)

/-- STATUS (R182). -/
def execStatus (tag page : Byte) (s : State) : Host.Outcome State Fault Refusal :=
  done (submit ⟨2, tag, [page]⟩ (decideStatus tag page) s)

/-- RESTART (R182): the cold reset follows when this answer has been transmitted. -/
def execRestart (tag : Byte) (s : State) : Host.Outcome State Fault Refusal :=
  done (submit ⟨3, tag, []⟩ (decideRestart tag) s)

/-- JOB LOAD (R177). -/
def execJobLoad (tag slot : Byte) (s : State) : Host.Outcome State Fault Refusal :=
  done (submit ⟨4, tag, [slot]⟩ (decideJobLoad tag slot) s)

/-- ARM (R177). -/
def execArm (tag : Byte) (s : State) : Host.Outcome State Fault Refusal :=
  done (submit ⟨5, tag, []⟩ (decideArm tag) s)

/-- JOB END (R177). -/
def execJobEnd (tag : Byte) (s : State) : Host.Outcome State Fault Refusal :=
  done (submit ⟨6, tag, []⟩ (decideJobEnd tag) s)

/-- JOB ABORT (R177). -/
def execJobAbort (tag : Byte) (s : State) : Host.Outcome State Fault Refusal :=
  done (submit ⟨7, tag, []⟩ (decideJobAbort tag) s)

/-- JOB CLEAR (R177). -/
def execJobClear (tag : Byte) (s : State) : Host.Outcome State Fault Refusal :=
  done (submit ⟨8, tag, []⟩ (decideJobClear tag) s)

/-- JOB SET (R179). -/
def execJobSet (tag group : Byte) (contents : List Byte) (s : State) : Host.Outcome State Fault Refusal :=
  done (submit ⟨9, tag, group :: contents⟩ (decideJobSet tag group contents) s)

/-- JOB READ (R179). -/
def execJobRead (tag source group : Byte) (s : State) : Host.Outcome State Fault Refusal :=
  done (submit ⟨10, tag, [source, group]⟩ (decideJobRead tag source group) s)

/-- JOB STORE (R181). -/
def execJobStore (tag slot : Byte) (s : State) : Host.Outcome State Fault Refusal :=
  done (submit ⟨11, tag, [slot]⟩ (decideJobStore tag slot) s)

/-- DEVICE SET (R181). -/
def execDeviceSet (tag rate startup : Byte) (s : State) : Host.Outcome State Fault Refusal :=
  done (submit ⟨12, tag, [rate, startup]⟩ (decideDeviceSet tag rate startup) s)

/-- CODE SET (R20). -/
def execCodeSet (tag entry active kind design counter : Byte) (s : State) :
    Host.Outcome State Fault Refusal :=
  done (submit ⟨13, tag, [entry, active, kind, design, counter]⟩
    (decideCodeSet tag entry active kind design counter) s)

/-- LOOP SET (R75). -/
def execLoopSet (tag loop action : Byte) (s : State) : Host.Outcome State Fault Refusal :=
  done (submit ⟨14, tag, [loop, action]⟩ (decideLoopSet tag loop action) s)

/-- LOOP READ (R76). -/
def execLoopRead (tag loop : Byte) (s : State) : Host.Outcome State Fault Refusal :=
  done (submit ⟨15, tag, [loop]⟩ (decideLoopRead tag loop) s)

/-- TRIM JOG (R88). -/
def execTrimJog (tag output : Byte) (steps : BitVec 16) (s : State) : Host.Outcome State Fault Refusal :=
  done (submit ⟨16, tag, output :: le 2 steps.toNat⟩ (decideTrimJog tag output steps) s)

/-- ENGAGE (R107). -/
def execEngage (tag : Byte) (s : State) : Host.Outcome State Fault Refusal :=
  done (submit ⟨17, tag, []⟩ (decideEngage tag) s)

/-- LIFT (R106). -/
def execLift (tag : Byte) (s : State) : Host.Outcome State Fault Refusal :=
  done (submit ⟨18, tag, []⟩ (decideLift tag) s)

/-- REMARK (R53). -/
def execRemark (tag : Byte) (index : BitVec 32) (value : Byte) (s : State) :
    Host.Outcome State Fault Refusal :=
  done (submit ⟨19, tag, le 4 index.toNat ++ [value]⟩ (decideRemark tag index value) s)

/-- AMEND WINDOW (R54). -/
def execAmendWindow (tag : Byte) (first last : BitVec 32) (s : State) : Host.Outcome State Fault Refusal :=
  done (submit ⟨20, tag, le 4 first.toNat ++ le 4 last.toNat⟩ (decideAmendWindow tag first last) s)

/-- REPEAT READ (R55). -/
def execRepeatRead (tag selector : Byte) (index : BitVec 32) (s : State) :
    Host.Outcome State Fault Refusal :=
  done (submit ⟨21, tag, selector :: le 4 index.toNat⟩ (decideRepeatRead tag selector index) s)

/-- ROLL READ (R149). -/
def execRollRead (tag choice : Byte) (number : BitVec 32) (s : State) : Host.Outcome State Fault Refusal :=
  done (submit ⟨22, tag, choice :: le 4 number.toNat⟩ (decideRollRead tag choice number) s)

/-- BATCH READ (R161). -/
def execBatchRead (tag choice : Byte) (number : BitVec 16) (s : State) :
    Host.Outcome State Fault Refusal :=
  done (submit ⟨23, tag, choice :: le 2 number.toNat⟩ (decideBatchRead tag choice number) s)

/-- BATCH CLOSE (R160). -/
def execBatchClose (tag : Byte) (number : BitVec 16) (s : State) : Host.Outcome State Fault Refusal :=
  done (submit ⟨24, tag, le 2 number.toNat⟩ (decideBatchClose tag number) s)

/-- LABEL RESEND (R169). -/
def execLabelResend (tag : Byte) (s : State) : Host.Outcome State Fault Refusal :=
  done (submit ⟨25, tag, []⟩ (decideLabelResend tag) s)

/-- LABEL SKIP (R169). -/
def execLabelSkip (tag : Byte) (s : State) : Host.Outcome State Fault Refusal :=
  done (submit ⟨26, tag, []⟩ (decideLabelSkip tag) s)

end Sys2Proof.Machine
end

