-- ==== Sys2Proof/Machine/Receiver.lean ====
section
/-! DEFINITION. The framing side of the Link Unit: the taking of the orders that wait, the receiver, and
the transmitter's end of a frame (R173, R174, R176, R182). -/

namespace Sys2Proof.Machine

/-! ### Taking the orders that wait (R174) -/

/-- What an order does when it is taken from the queue; a command that is no order does nothing here. -/
def takeOrder : Instr → State → State
  | .ident tag, s => decideIdent tag s
  | .status tag page, s => decideStatus tag page s
  | .restart tag, s => decideRestart tag s
  | .jobLoad tag slot, s => decideJobLoad tag slot s
  | .arm tag, s => decideArm tag s
  | .jobEnd tag, s => decideJobEnd tag s
  | .jobAbort tag, s => decideJobAbort tag s
  | .jobClear tag, s => decideJobClear tag s
  | .jobSet tag group contents, s => decideJobSet tag group contents s
  | .jobRead tag source group, s => decideJobRead tag source group s
  | .jobStore tag slot, s => decideJobStore tag slot s
  | .deviceSet tag rate startup, s => decideDeviceSet tag rate startup s
  | .codeSet tag entry active kind design counter, s => decideCodeSet tag entry active kind design counter s
  | .loopSet tag loop action, s => decideLoopSet tag loop action s
  | .loopRead tag loop, s => decideLoopRead tag loop s
  | .trimJog tag output steps, s => decideTrimJog tag output steps s
  | .engage tag, s => decideEngage tag s
  | .lift tag, s => decideLift tag s
  | .remark tag index value, s => decideRemark tag index value s
  | .amendWindow tag first last, s => decideAmendWindow tag first last s
  | .repeatRead tag selector index, s => decideRepeatRead tag selector index s
  | .rollRead tag choice number, s => decideRollRead tag choice number s
  | .batchRead tag choice number, s => decideBatchRead tag choice number s
  | .batchClose tag number, s => decideBatchClose tag number s
  | .labelResend tag, s => decideLabelResend tag s
  | .labelSkip tag, s => decideLabelSkip tag s
  | .coldReset, s | .encoderCount _ _, s | .scannerEdge _ _, s | .speedMeasurement, s
  | .splicePulse, s | .doffPulse, s | .trimStep _, s | .drawPeriodEnd, s | .nipTimerExpiry, s
  | .knifeTimerExpiry, s | .turretTimerExpiry, s | .headTimeoutExpiry, s | .pollSent, s
  | .headByteReceived _, s | .headAnswerGap, s | .labellerByteReceived _, s | .labelCrTransmitted, s
  | .replyTimerExpiry, s | .hostByteReceived _, s | .frameGapTimerExpiry, s | .frameTransmitted, s
  | .storeProgrammingTimerExpiry, s | .timeBaseUnit, s => s

/-- The order at the front of the queue, taken: it leaves the queue, is refused LENGTH when its body's length
is not one its kind allows, and is decided otherwise (R174). -/
def takeFront (f : Frame) (s : State) : State :=
  let s := dropFront s
  match ofFrame f with
  | none => refuse f.kind f.tag .length s
  | some i => takeOrder i s

/-- So many orders taken, one after another, while fewer than 8 answers are held. -/
def serveRun : Nat → State → State
  | 0, s => s
  | k + 1, s => match frontOrder s with
    | none => s
    | some f => serveRun k (takeFront f s)

/-- The orders that wait, taken one after another until none is left or 8 answers are held (R174). -/
def serve (s : State) : State := serveRun s.link.orders.length s

/-! ### The receiver (R173) -/

/-- The reload of the frame gap timer (R173). -/
def gapReload : Nat := 30

/-- The receiver waits again, with the gap timer stopped. -/
def Link.wait (l : Link) : Link := { l with assembling := none, gapTimer := l.gapTimer.stop }

/-- The receiver holds these bytes after the start byte, with the gap timer restarted. -/
def Link.hold (l : Link) (bs : List Byte) : Link :=
  { l with assembling := some bs, gapTimer := l.gapTimer.start gapReload }

/-- A complete frame with a right check (R173, R174): an order joins the queue, or is answered BUSY, and the
orders that can be taken are taken. -/
def takeFrame (f : Frame) (s : State) : State :=
  let k := f.kind.toNat
  if 1 ≤ k ∧ k ≤ 26 then serve (enqueue f s)
  else
    let s := s.setLink (s.link.count fun c => { c with badKind := bump c.badKind })
    if k < 127 then answerIfRoom (refusal f.kind f.tag .kind) s else s

/-- The bytes from length to check of a frame whose last byte has come: its check, and the frame (R172,
R173). -/
def completeFrame (bs : List Byte) (s : State) : State :=
  let n := bs.length - 2
  let s := s.setLink s.link.wait
  if crcBytes (bs.take n) = bs.drop n then
    takeFrame ⟨byteAt bs 1, byteAt bs 2, (bs.take n).drop 3⟩ s
  else s.setLink (s.link.count fun c => { c with badCheck := bump c.badCheck })

/-- A byte received on the host link (R173). -/
def hostByte (b : Byte) (s : State) : State :=
  match s.link.assembling with
  | none =>
    if b = frameStart then s.setLink (s.link.hold [])
    else s.setLink (s.link.count fun c => { c with noise := bump c.noise })
  | some [] =>
    if inRange 2 242 b.toNat then s.setLink (s.link.hold [b])
    else s.setLink (s.link.wait.count fun c => { c with badLength := bump c.badLength })
  | some (n :: bs) =>
    let bs := n :: bs ++ [b]
    if bs.length < n.toNat + 3 then s.setLink (s.link.hold bs) else completeFrame bs s

/-- Expiry of the frame gap timer (R173). A byte that arrives with the expiry and is taken first has started
the timer again, or stopped it, and no expiry is left to take. -/
def gapExpiry (s : State) : State :=
  if s.link.gapTimer.due then
    let l := { s.link with gapTimer := s.link.gapTimer.expire }
    match l.assembling with
    | none => s.setLink l
    | some _ => s.setLink (l.wait.count fun c => { c with gap := bump c.gap })
  else s

/-! ### The transmitter (R176, R182) -/

/-- An answer kept because 8 were held is made ready when one of them has gone (R174). -/
def readyWaiting (s : State) : State :=
  match s.job.waiting with
  | none => s
  | some f => if s.link.mayAnswer then answer f (s.setJob { s.job with waiting := none }) else s

/-- The frame is the answer that accepts a RESTART (R182). -/
def Frame.isRestart (f : Frame) : Bool := f.kind == 131 && f.body == [0]

/-- A frame's check has been sent (R174, R176, R182): the transmitter begins the next frame, and what waited
while 8 answers were held goes on, the answer of a programming first (log entry 15). -/
def frameSent (s : State) : State :=
  match s.link.sending with
  | none => s
  | some x =>
    if x.frame.isRestart then coldReset s
    else serve (readyWaiting (pump (s.setLink { s.link with sending := none })))

end Sys2Proof.Machine
end

