-- ==== Sys2Proof/Machine/Events.lean ====
section
/-! DEFINITION. The meanings of the events of the line, of the timers and of the serial lines: one
definition for each command that is no order. -/

namespace Sys2Proof.Machine

/-! ### Time (R4, R5, R6) -/

/-- The units of the time base from one speed measurement to the next (R4). -/
def measureInterval : Nat := 100

/-- The EPU at a unit of the time base: the time base advances, and every 100 units a measurement falls
due (R4, R5). -/
def Epu.tick (e : Epu) : Epu :=
  let n := e.intervalUnits + 1
  if measureInterval ≤ n then { e with timeBase := e.timeBase + 1, intervalUnits := 0, measureDue := true }
  else { e with timeBase := e.timeBase + 1, intervalUnits := n }

/-- The trim outputs at a unit of the time base (R84). -/
def tickTrims (j : JobSettings) (t : Tou) : Tou :=
  { t with trims := Vector.ofFn fun i => t.trims[i].tick j.trims[i].rate }

/-- One unit of the time base (R5, R6, R84): the seven timers and the eight accumulators. A trigger pulse,
0.1 ms long, ends at the first unit after it began (R119, log entry 9). -/
def tickAll (s : State) : State :=
  { s with
    epu := s.epu.tick
    tou := tickTrims s.act s.tou
    emc := { s.emc with timer := s.emc.timer.tick }
    shu := { s.shu with timer := s.shu.timer.tick, triggerOut := false }
    wnc := { s.wnc with knife := s.wnc.knife.tick, turret := s.wnc.turret.tick }
    lbu := { s.lbu with timer := s.lbu.timer.tick }
    link := { s.link with gapTimer := s.link.gapTimer.tick }
    job := { s.job with timer := s.job.timer.tick } }

/-- Both speeds measured (R4). -/
def Epu.measure (e : Epu) : Epu := { e with u := e.u.measure, d := e.d.measure, measureDue := false }

/-! ### Meanings -/

/-- COLD_RESET (R183). -/
def execColdReset (s : State) : Host.Outcome State Fault Refusal := .next (coldReset s)

/-- ENCODER_COUNT (R2); a record made at a count of U may be the start record of the threading (R133). -/
def execEncoderCount (enc : Encoder) (dir : Direction) (s : State) : Host.Outcome State Fault Refusal :=
  done (match enc with
    | .print => nameStart (printCount dir s)
    | .wind => checkDrained (windCount dir s))

/-- SCANNER_EDGE (R8). -/
def execScannerEdge (scanner : Scanner) (edge : Edge) (s : State) : Host.Outcome State Fault Refusal :=
  done (match scanner with
    | .print => printEdge edge s
    | .emboss => embossEdge edge s)

/-- SPEED_MEASUREMENT (R4): both speeds, the nip (R106, R109), the lead of an armed cut (R136). -/
def execSpeedMeasurement (s : State) : Host.Outcome State Fault Refusal :=
  done (checkDrained (wncSpeed (nipSpeed (s.setEpu s.epu.measure))))

/-- SPLICE_PULSE (R35). -/
def execSplicePulse (s : State) : Host.Outcome State Fault Refusal := done (splicePulse s)

/-- DOFF_PULSE (R145). -/
def execDoffPulse (s : State) : Host.Outcome State Fault Refusal := done (doffPulse s)

/-- TRIM_STEP (R84). -/
def execTrimStep (output : Fin 8) (s : State) : Host.Outcome State Fault Refusal :=
  done (setTrim output s.tou.trims[output].step s)

/-- DRAW_PERIOD_END (R91, R92). -/
def execDrawPeriodEnd (s : State) : Host.Outcome State Fault Refusal :=
  done (s.setTou { s.tou with draw := s.tou.draw.period })

/-- NIP_TIMER_EXPIRY (R105, R109). -/
def execNipTimerExpiry (s : State) : Host.Outcome State Fault Refusal := done (nipExpiry s)

/-- KNIFE_TIMER_EXPIRY (R133, R139). -/
def execKnifeTimerExpiry (s : State) : Host.Outcome State Fault Refusal := done (knifeExpiry s)

/-- TURRET_TIMER_EXPIRY (R139). -/
def execTurretTimerExpiry (s : State) : Host.Outcome State Fault Refusal := done (checkDrained (turretExpiry s))

/-- HEAD_TIMEOUT_EXPIRY (R119). -/
def execHeadTimeoutExpiry (s : State) : Host.Outcome State Fault Refusal := done (headTimeout s)

/-- POLL_SENT (R119). -/
def execPollSent (s : State) : Host.Outcome State Fault Refusal := done (pollSent s)

/-- HEAD_BYTE_RECEIVED (R115). -/
def execHeadByteReceived (b : Byte) (s : State) : Host.Outcome State Fault Refusal := done (headByte b s)

/-- HEAD_ANSWER_GAP (R115). -/
def execHeadAnswerGap (s : State) : Host.Outcome State Fault Refusal := done (headGap s)

/-- LABELLER_BYTE_RECEIVED (R168). -/
def execLabellerByteReceived (b : Byte) (s : State) : Host.Outcome State Fault Refusal :=
  done (checkDrained (labellerByte b s))

/-- LABEL_CR_TRANSMITTED (R167). -/
def execLabelCrTransmitted (s : State) : Host.Outcome State Fault Refusal := done (labelCr s)

/-- REPLY_TIMER_EXPIRY (R168). -/
def execReplyTimerExpiry (s : State) : Host.Outcome State Fault Refusal := done (replyExpiry s)

/-- HOST_BYTE_RECEIVED (R173). -/
def execHostByteReceived (b : Byte) (s : State) : Host.Outcome State Fault Refusal := done (hostByte b s)

/-- FRAME_GAP_TIMER_EXPIRY (R173). -/
def execFrameGapTimerExpiry (s : State) : Host.Outcome State Fault Refusal := done (gapExpiry s)

/-- FRAME_TRANSMITTED (R176, R182). -/
def execFrameTransmitted (s : State) : Host.Outcome State Fault Refusal := done (frameSent s)

/-- STORE_PROGRAMMING_TIMER_EXPIRY (R181). -/
def execStoreProgrammingTimerExpiry (s : State) : Host.Outcome State Fault Refusal := done (programmingExpiry s)

/-- TIME_BASE_UNIT (R5, R6, R84). -/
def execTimeBaseUnit (s : State) : Host.Outcome State Fault Refusal := done (tickAll s)

end Sys2Proof.Machine
end

