-- ==== Sys2Proof/Machine/Dispatch.lean ====
section
/-! DEFINITION. The meaning of every command: one arm for each row of the opcode table. -/

namespace Sys2Proof.Machine

/-- The command's effect on everything but the queue of commands. -/
def exec (i : Instr) (s : State) : Host.Outcome State Fault Refusal :=
  match i with
  | .coldReset => Sys2Proof.Machine.execColdReset s
  | .encoderCount enc dir => Sys2Proof.Machine.execEncoderCount enc dir s
  | .scannerEdge scanner edge => Sys2Proof.Machine.execScannerEdge scanner edge s
  | .speedMeasurement => Sys2Proof.Machine.execSpeedMeasurement s
  | .splicePulse => Sys2Proof.Machine.execSplicePulse s
  | .doffPulse => Sys2Proof.Machine.execDoffPulse s
  | .trimStep output => Sys2Proof.Machine.execTrimStep output s
  | .drawPeriodEnd => Sys2Proof.Machine.execDrawPeriodEnd s
  | .nipTimerExpiry => Sys2Proof.Machine.execNipTimerExpiry s
  | .knifeTimerExpiry => Sys2Proof.Machine.execKnifeTimerExpiry s
  | .turretTimerExpiry => Sys2Proof.Machine.execTurretTimerExpiry s
  | .headTimeoutExpiry => Sys2Proof.Machine.execHeadTimeoutExpiry s
  | .pollSent => Sys2Proof.Machine.execPollSent s
  | .headByteReceived b => Sys2Proof.Machine.execHeadByteReceived b s
  | .headAnswerGap => Sys2Proof.Machine.execHeadAnswerGap s
  | .labellerByteReceived b => Sys2Proof.Machine.execLabellerByteReceived b s
  | .labelCrTransmitted => Sys2Proof.Machine.execLabelCrTransmitted s
  | .replyTimerExpiry => Sys2Proof.Machine.execReplyTimerExpiry s
  | .hostByteReceived b => Sys2Proof.Machine.execHostByteReceived b s
  | .frameGapTimerExpiry => Sys2Proof.Machine.execFrameGapTimerExpiry s
  | .frameTransmitted => Sys2Proof.Machine.execFrameTransmitted s
  | .storeProgrammingTimerExpiry => Sys2Proof.Machine.execStoreProgrammingTimerExpiry s
  | .ident tag => Sys2Proof.Machine.execIdent tag s
  | .status tag page => Sys2Proof.Machine.execStatus tag page s
  | .restart tag => Sys2Proof.Machine.execRestart tag s
  | .jobLoad tag slot => Sys2Proof.Machine.execJobLoad tag slot s
  | .arm tag => Sys2Proof.Machine.execArm tag s
  | .jobEnd tag => Sys2Proof.Machine.execJobEnd tag s
  | .jobAbort tag => Sys2Proof.Machine.execJobAbort tag s
  | .jobClear tag => Sys2Proof.Machine.execJobClear tag s
  | .jobSet tag group contents => Sys2Proof.Machine.execJobSet tag group contents s
  | .jobRead tag source group => Sys2Proof.Machine.execJobRead tag source group s
  | .jobStore tag slot => Sys2Proof.Machine.execJobStore tag slot s
  | .deviceSet tag rate startup => Sys2Proof.Machine.execDeviceSet tag rate startup s
  | .codeSet tag entry active kind design counter => Sys2Proof.Machine.execCodeSet tag entry active kind design counter s
  | .loopSet tag loop action => Sys2Proof.Machine.execLoopSet tag loop action s
  | .loopRead tag loop => Sys2Proof.Machine.execLoopRead tag loop s
  | .trimJog tag output steps => Sys2Proof.Machine.execTrimJog tag output steps s
  | .engage tag => Sys2Proof.Machine.execEngage tag s
  | .lift tag => Sys2Proof.Machine.execLift tag s
  | .remark tag index value => Sys2Proof.Machine.execRemark tag index value s
  | .amendWindow tag first last => Sys2Proof.Machine.execAmendWindow tag first last s
  | .repeatRead tag selector index => Sys2Proof.Machine.execRepeatRead tag selector index s
  | .rollRead tag choice number => Sys2Proof.Machine.execRollRead tag choice number s
  | .batchRead tag choice number => Sys2Proof.Machine.execBatchRead tag choice number s
  | .batchClose tag number => Sys2Proof.Machine.execBatchClose tag number s
  | .labelResend tag => Sys2Proof.Machine.execLabelResend tag s
  | .labelSkip tag => Sys2Proof.Machine.execLabelSkip tag s
  | .timeBaseUnit => Sys2Proof.Machine.execTimeBaseUnit s

end Sys2Proof.Machine
end

