-- ==== Sys2Proof/Safety.lean ====
section
/-! DEFINITION. What claims about the block are stated in: when an order is taken at once, a run over
several commands, and the properties that a safe state has. -/

namespace Sys2Proof.Machine

/-! ### Orders and runs -/

/-- An order that arrives is taken at once: fewer than 8 answers are held and no other order waits (R174). -/
def Takeable (s : State) : Prop := s.link.answers.length < answerCapacity ∧ s.link.orders = []

/-- Commands taken one after another. -/
def runAll : List Instr → State → Host.Outcome State Fault Refusal
  | [], s => .next s
  | c :: cs, s => match exec c s with
    | .next t => runAll cs t
    | .fault f => .fault f
    | .refused r => .refused r

/-- Commands in a list each taken as a byte of the host link. -/
def hostBytes (bs : List Byte) : List Instr := bs.map .hostByteReceived

/-- Notices raised one after another. -/
def raiseAll (bs : List NoticeBody) (s : State) : State := bs.foldl (fun x b => raise b x) s

/-- The loops of a list that are in COAST. -/
def inCoast (s : State) (is : List (Fin 8)) : List (Fin 8) := is.filter fun i => s.rlu.loops[i].state = .coast

/-- The LOOP notices of the loops of a list that an order takes out of COAST, one after another, with the free
causes and indices of log entry 2. -/
def coastNotices (s : State) (is : List (Fin 8)) (new : LoopState) : List NoticeBody :=
  (inCoast s is).zipIdx.map fun p => .loop p.1 .coast new (.unstated (Config.freeCause (s.free + p.2)))
    (Config.freeIndex (s.free + p.2)).toNat

/-- Every OPEN batch closed with cause JOB, in entry order, each with a new stamp and its BATCH_CLOSED notice
(R160). -/
def batchesEnded (s : State) : State :=
  [(0 : Fin 8), 1, 2, 3, 4, 5, 6, 7].foldl (fun x e => match x.gru.table[e] with
    | none => x
    | some b => if b.closed = none then
        raise (.batchClosed b.number e .job b.rolls b.lastRoll) { x with gru := { x.gru with
          table := x.gru.table.set e (some { b with closed := some (x.gru.use + 1, .job) })
          use := x.gru.use + 1 } }
      else x) s

/-- The end of draining: the readers stop and drop what they hold (R7), the nip is lifted with cause JOB (R106), the
OPEN batches are closed (R160), and the job is READY (R177), in this order of the model's choice (log entry
13). -/
def jobDrained (s : State) : State :=
  let stopped := { s with mrd := {
    print := { s.mrd.print with lead := none }, emboss := { s.mrd.emboss with lead := none }
    group := none, embossGroup := none, held := [] } }
  let lifted := if s.emc.nip = .engaging ∨ s.emc.nip = .engaged then
      raise (.nip s.emc.nip .lifting .job s.epu.d.pos) { stopped with emc := { s.emc with
        nip := .lifting, lastLift := .job, autoPending := false
        timer := s.emc.timer.start s.act.emboss.liftTime } }
    else { stopped with emc := { s.emc with autoPending := false } }
  raise (.job s.job.state .ready .drained)
    { batchesEnded lifted with job := { s.job with state := .ready } }

/-! ### Counters, edges and words -/

/-- A counter after one count (R2, R3): one forward or backward modulo 2^40; the high-water mark and the
fresh state follow; the speed and the position it was last measured at stay. -/
def Counted (dir : Direction) (c c' : Counter) : Prop :=
  c'.speed = c.speed ∧ c'.measuredAt = c.measuredAt ∧
  match dir with
  | .forward => c'.pos = c.pos + 1 ∧
      if 0 < posDiff (c.pos + 1) c.highWater then c'.highWater = c.pos + 1 ∧ c'.fresh = true
      else c'.highWater = c.highWater ∧ c'.fresh = false
  | .backward => c'.pos = c.pos - 1 ∧ c'.highWater = c.highWater ∧ c'.fresh = false

/-- A reader captures: the job is ARMED or DRAINING and the reader's counter is fresh (R7, R8). -/
def captures (s : State) (c : Counter) : Prop :=
  (s.job.state = .armed ∨ s.job.state = .draining) ∧ c.fresh = true

/-- The eight cells a nibble is printed as: p1 p2 d1 p3 d2 d3 d4 p0, with the parities of R15. -/
def printedWord (v : Nibble) : List Bool :=
  let d1 := v.getLsbD 0
  let d2 := v.getLsbD 1
  let d3 := v.getLsbD 2
  let d4 := v.getLsbD 3
  let p1 := d1 ^^ d2 ^^ d4
  let p2 := d1 ^^ d3 ^^ d4
  let p3 := d2 ^^ d3 ^^ d4
  [p1, p2, d1, p3, d2, d3, d4, p1 ^^ p2 ^^ d1 ^^ p3 ^^ d2 ^^ d3 ^^ d4]

/-- Cells with one of them misread. -/
def misread (k : Nat) (cells : List Bool) : List Bool := cells.modify k not

/-- The cells of an open group after a count that leaves the counter at `p`: the cells whose places are reached
are sampled with the level, in order, up to the twenty-fourth (R13). -/
def Sampled (cfg : ReaderSettings) (key : HalfPos) (p : Pos) (level : Bool) (old new : List Bool) : Prop :=
  let reached := fun k : Nat =>
    0 ≤ halfDiff (half p) (halfShift key (2 * (cfg.codeOffset : Int) + 2 * k * cfg.pitch))
  ∃ m, new = old ++ List.replicate m level ∧
    (∀ k, old.length ≤ k → k < old.length + m → k < 24 ∧ reached k) ∧
    (24 ≤ old.length + m ∨ ¬ reached (old.length + m))

/-! ### Records made -/

/-- The raw errors of a record's station marks (R64): the measured offset of a mark from the key less twice its
nominal, in half-counts; absent for an absent mark and beyond the last station. -/
def ErrorsMeasured (j : JobSettings) (key : Mark) (marks : Vector (Option Mark) 7)
    (errors : Vector (Option Int) 7) : Prop :=
  ∀ i : Fin 7,
    (j.reader.stations < i.val + 2 → errors[i] = none) ∧
    (i.val + 2 ≤ j.reader.stations →
      (marks[i] = none → errors[i] = none) ∧
      ∀ m, marks[i] = some m → errors[i] = some
        (halfDiff (centreSum m.lead m.trail) (centreSum key.lead key.trail) - 2 * (j.reader.nominal[i] : Int)))

/-- A record made of a key group at an index (R27): CREATED, seen, with what the group gave, with GAP_BEFORE when
`gap` holds, and with the errors of its marks in its REG group unless it is UNMATCHED (R63 to R65). -/
def MadeSeen (j : JobSettings) (r : Record) (index : Nat) (k : KeyGroup) (gap : Prop) : Prop :=
  r.index = index ∧ r.predicted = false ∧ r.missed = false ∧ r.keyU = k.centre ∧ r.counter = k.counter ∧
    r.design = k.design ∧ r.status = k.status ∧ (r.jobMark = true ↔ k.outcome = .jobMark) ∧
    (r.unmatched = true ↔ k.outcome = .unmatched) ∧ (r.gapBefore = true ↔ gap) ∧
    (r.reg.isSome = true ↔ k.outcome ≠ .unmatched) ∧
    (∀ g, r.reg = some g → ErrorsMeasured j k.key k.marks g.errors ∧ g.out = regOut j g.errors) ∧
    r.keyT = none ∧ r.stage = .created

/-- A MISSED record made at an index with a centre sum (R26, R27), with GAP_BEFORE when `gap` holds. -/
def MadeMissed (r : Record) (index : Nat) (c : HalfPos) (gap : Prop) : Prop :=
  r.index = index ∧ r.predicted = false ∧ r.missed = true ∧ r.keyU = c ∧ r.counter = none ∧ r.design = none ∧
    r.status = .none ∧ (r.gapBefore = true ↔ gap) ∧ r.reg = none ∧ r.keyT = none ∧ r.stage = .created

/-- The next record of an index gets GAP_BEFORE: the gap-pending flag is set, or the newest record is not the
one before it (R27, R43). -/
def GapBefore (s : State) (index : Nat) : Prop :=
  s.rtk.gapPending = true ∨ ∃ x, s.rst.records.getLast? = some x ∧ x.index + 1 ≠ index

/-- What a record gives the loop of a station (R63), its raw errors being those of its REG group. -/
def Record.gives (r : Record) (i : Fin 7) : LoopInput :=
  if r.splice.isSome || r.unmatched then .nothing
  else match r.reg.bind (fun g => g.errors[i]) with
    | none => .miss
    | some e => .sample e

/-- A loop of a station after an input, under the settings in force (R66, R71). -/
def loopAfter (j : JobSettings) (i : Fin 7) (l : Loop) (x : LoopInput) : LoopResult :=
  l.take j.loops[i.castSucc] (j.filter j.loops[i.castSucc].filterSet) j.reader.capture[i] x

/-- Records handed to the register loops one after another: the loop of each station takes what each gives it,
and the loops beyond the last station and L8 take nothing (R63). -/
def LoopsTook (rs : List Record) (s t : State) : Prop :=
  t.rlu.loops[(7 : Fin 8)] = s.rlu.loops[(7 : Fin 8)] ∧
  ∀ i : Fin 7,
    (s.act.reader.stations < i.val + 2 → t.rlu.loops[i.castSucc] = s.rlu.loops[i.castSucc]) ∧
    (i.val + 2 ≤ s.act.reader.stations → t.rlu.loops[i.castSucc] =
      rs.foldl (fun l r => (loopAfter s.act i l (r.gives i)).loop) s.rlu.loops[i.castSucc])

/-- So many repeats went unrecorded (R34): they are counted, the next record accepted gets GAP_BEFORE, a
store-full episode is on, and no record was made. -/
def Unrecorded (n : Nat) (s t : State) : Prop :=
  t.rtk.gapPending = true ∧ t.rtk.storeFull = true ∧
    t.rtk.counts.unrecorded = min (s.rtk.counts.unrecorded + n) 65535 ∧
    t.rst.records.length = s.rst.records.length

/-! ### Shade cycles -/

/-- What the end of a poll cycle does to the store, to the unit's counts and to the notices, given the counts
before it (R121 to R124): too few answers are a miss and write nothing; otherwise their sample is the SHD group
of the trigger's record, an orphan without that record, and a late write to a CLOSED one (R46, R48). -/
def CycleEnded (c : PollCycle) (answers : List Reading) (before : ShuCounts) (s t : State) : Prop :=
  (answers.length < s.act.shade.minHeads →
    t.rst = s.rst ∧ t.link = s.link ∧
      t.shu.counts = { before with misses := min (before.misses + 1) 65535 }) ∧
  (s.act.shade.minHeads ≤ answers.length →
    let x := combine s.act.shade.sideTolerance answers
    t.shu.counts = { before with
      samples := min (before.samples + 1) 65535
      clamped := if x.clamped then min (before.clamped + 1) 65535 else before.clamped
      side := if x.side then min (before.side + 1) 65535 else before.side } ∧
    match s.rst.records.find? (fun y => y.index == c.index) with
    | none => t.rst = { s.rst with orphans := min (s.rst.orphans + 1) 65535 } ∧ t.link = s.link
    | some r => if r.stage = .closed then
        t.rst = { s.rst with late := { s.rst.late with shd := min (s.rst.late.shd + 1) 65535 } } ∧
          t.link = (raise (.lateWrite .shd c.index r.rollNumber) s).link
      else t.rst = { s.rst with
          records := s.rst.records.map fun y => if y.index = c.index then { y with shd := some x } else y } ∧
        t.link = s.link)

/-! ### Rolls -/

/-- The slot a new roll takes (R129): the lowest-numbered FREE one, otherwise the LABELLED one of lowest roll
number. -/
def Allocates (s : State) (i : Fin 12) : Prop :=
  s.wnc.nextRoll ≤ 4294967295 ∧
    ((s.wnc.slots[i] = .free ∧ ∀ j < i, s.wnc.slots[j] ≠ .free) ∨
      ((∀ j : Fin 12, s.wnc.slots[j] ≠ .free) ∧ ∃ r, s.wnc.slots[i] = .used .labelled r ∧
        ∀ (j : Fin 12) q, j ≠ i → s.wnc.slots[j] = .used .labelled q → r.number < q.number))

/-- No slot can be taken by a new roll: the roll numbers are used up, or no slot is FREE or LABELLED (R129). -/
def NoneAllocatable (s : State) : Prop :=
  4294967295 < s.wnc.nextRoll ∨
    ∀ i : Fin 12, s.wnc.slots[i] ≠ .free ∧ ∀ r, s.wnc.slots[i] ≠ .used .labelled r

/-! ### Group writes -/

/-- The contents of one group of a record (R44). -/
inductive Group44 where
  | reg (x : Reg)
  | emb (x : Emb)
  | shd (x : Shd)
  | wnd (x : Wnd)
deriving DecidableEq, Repr

/-- The part a group is. -/
def Group44.part : Group44 → Part
  | .reg _ => .reg
  | .emb _ => .emb
  | .shd _ => .shd
  | .wnd _ => .wnd

/-- The record with that group replaced. -/
def Group44.put (r : Record) : Group44 → Record
  | .reg x => { r with reg := some x }
  | .emb x => { r with emb := some x }
  | .shd x => { r with shd := some x }
  | .wnd x => { r with wnd := some x }

/-- A group write, with or without a stage request (R42, R44). -/
def groupWrite (g : Group44) (req : Option Stage) (i : Nat) (s : State) : State :=
  writePart g.part i (fun r => g.put (match req with
    | none => r
    | some st => r.request st)) s

/-! ### Layouts -/

/-- The field of `w` bytes at an offset of a body holds a number, least-significant byte first and in two's
complement when it is signed (R172, R184). Offset 0 is the result byte, so that offset 1 is the first byte of
the data. -/
def holdsNumber (data : List Byte) (offset w : Nat) (x : Int) : Prop :=
  ∀ k, k < w → data[offset - 1 + k]? = some (BitVec.ofInt 8 (x / 256 ^ k))

/-- The byte at an offset of a body holds flags from bit 0 up, its other bits 0 (R184). -/
def holdsFlags (data : List Byte) (offset : Nat) (flags : List Bool) : Prop :=
  ∃ b : Byte, data[offset - 1]? = some b ∧ ∀ k : Nat, b.getLsbD k = flags.getD k false

/-- The REPEAT READ answer of a record (R184). A group that is absent reads 0 throughout (log entry 20). -/
def RepeatLaidOut (r : Record) (data : List Byte) : Prop :=
  let at_ := holdsNumber data
  let flags := holdsFlags data
  data.length = 87 ∧
  (at_ 1 4 r.index ∧
    flags 5 [r.predicted, r.missed, r.gapBefore, r.unmatched, r.jobMark, r.splice.isSome] ∧
    flags 6 [r.counter.isSome, r.design.isSome, r.lU.isSome, r.keyT.isSome, r.reg.isSome, r.emb.isSome,
      r.shd.isSome, r.wnd.isSome] ∧
    at_ 7 1 ((r.counter.getD 0).toNat + 16 * (r.design.getD 0).toNat) ∧ at_ 8 1 r.status.code.toNat ∧
    at_ 9 1 r.stage.code.toNat ∧ at_ 10 1 r.remark ∧ at_ 11 4 (r.splice.getD 0) ∧ at_ 15 6 r.keyU.toNat ∧
    at_ 21 4 (r.lU.getD 0) ∧ at_ 25 5 (r.keyT.getD 0).toNat) ∧
  (match r.reg with
    | none => at_ 30 15 0
    | some g => (∀ i : Fin 7, at_ (30 + 2 * i) 2 (g.errors[i].getD (-32768))) ∧
        flags 44 (g.mask.toList ++ [g.out])) ∧
  (match r.emb with
    | none => at_ 45 20 0
    | some g =>
      flags 45 [g.seenAt.isSome, g.lD.isSome, g.stretch.isSome, g.nip.isSome, g.phase.isSome] ∧
      flags 46 [g.seenAt.any (·.seen), g.nip == some true, g.wrongRepeat, g.out] ∧
      at_ 47 6 ((g.seenAt.map SeenAt.keyD).getD 0).toNat ∧ at_ 53 4 (g.lD.getD 0) ∧ at_ 57 4 (g.stretch.getD 0) ∧
      at_ 61 4 (g.phase.getD 0)) ∧
  (match r.shd with
    | none => at_ 65 10 0
    | some g => at_ 65 2 g.l ∧ at_ 67 2 g.a ∧ at_ 69 2 g.b ∧ at_ 71 1 g.heads ∧ at_ 72 2 g.spread ∧
        flags 74 [g.side, g.clamped]) ∧
  match r.wnd with
    | none => at_ 75 13 0
    | some g => at_ 83 5 g.cutStart.toNat ∧ match g.dest with
      | .roll slot number position =>
        at_ 75 1 slot.val ∧ at_ 76 4 number ∧ at_ 80 2 position ∧ at_ 82 1 0
      | .waste => at_ 75 1 255 ∧ at_ 76 4 0 ∧ at_ 80 2 0 ∧ at_ 82 1 1

/-- The ROLL READ answer of a slot (R184). -/
def RollLaidOut (i : Fin 12) (x : Slot) (data : List Byte) : Prop :=
  let at_ := holdsNumber data
  let flags := holdsFlags data
  data.length = 63 ∧ at_ 1 1 i.val ∧
  match x with
  | .free => at_ 2 62 0
  | .used phase r =>
    (at_ 2 1 (match phase with
      | .winding => 1
      | .cut => 2
      | .labelPending => 3
      | .labelled => 4)) ∧
    flags 3 [r.length.isSome, r.shade.isSome, r.grade.isSome, r.batch.isSome] ∧ at_ 4 4 r.number ∧
    at_ 8 4 r.firstIndex ∧ at_ 12 2 r.count ∧ at_ 14 2 r.target ∧ at_ 16 1 r.mode.code.toNat ∧
    at_ 17 5 r.start.toNat ∧ at_ 22 4 (r.length.getD 0) ∧ at_ 26 2 r.matchOffset ∧ at_ 28 1 r.design.toNat ∧
    flags 29 [r.short, r.overlength, r.trackLost] ∧ at_ 30 1 r.extra ∧
    (at_ 31 2 r.defects.regOut ∧ at_ 33 2 r.defects.embOut ∧ at_ 35 2 r.defects.notEmbossed ∧
      at_ 37 2 r.defects.wrongRepeat ∧ at_ 39 2 r.defects.tracking ∧ at_ 41 2 r.defects.side ∧
      at_ 43 2 r.defects.remark ∧ at_ 45 2 r.defects.repeats) ∧
    (match r.shade with
      | none => at_ 47 8 0
      | some y => at_ 47 2 y.l ∧ at_ 49 2 y.a ∧ at_ 51 2 y.b ∧ at_ 53 2 y.spread) ∧
    at_ 55 2 r.samples ∧ at_ 57 1 ((r.grade.map fun g => g.code.toNat).getD 0) ∧
    at_ 58 2 ((r.batch.map (·.number)).getD 0) ∧ at_ 60 2 ((r.batch.map (·.deltaE)).getD 0) ∧
    at_ 62 1 r.label.code.toNat ∧ at_ 63 1 r.label.faultByte.toNat

/-- The LOOP READ answer of a loop with its settings (R76, R79, R184). A correction that was not formed reads as
absent, and a history entry beyond the history count as 0 (log entry 20). -/
def LoopLaidOut (i : Fin 8) (cfg : LoopSettings) (l : Loop) (data : List Byte) : Prop :=
  let at_ := holdsNumber data
  let flags := holdsFlags data
  data.length = 53 ∧ at_ 1 1 (i.val + 1) ∧ at_ 2 1 l.state.code.toNat ∧
  (at_ 3 1 cfg.filterSet ∧ at_ 4 1 cfg.deadband ∧ at_ 5 2 cfg.gain ∧ at_ 7 2 cfg.maxstep ∧
    at_ 9 1 cfg.settle ∧ at_ 10 1 cfg.coastLimit ∧ at_ 11 2 cfg.tolerance) ∧
  at_ 13 1 l.history.length ∧ (∀ k, k < 8 → at_ (14 + 2 * k) 2 (l.history.getD k 0)) ∧
  flags 30 [l.lastGood.isSome, l.last.isSome] ∧ at_ 31 2 (l.lastGood.getD 0) ∧
  (match l.last with
    | none => at_ 33 5 0
    | some o => at_ 33 2 o.f ∧ at_ 35 2 (o.c.getD (-32768)) ∧ flags 37 [o.fclamp, o.deadband, o.zero, o.limited]) ∧
  at_ 38 1 l.missRun ∧ at_ 39 1 l.settle ∧
  at_ 40 2 l.counts.good ∧ at_ 42 2 l.counts.misses ∧ at_ 44 2 l.counts.clamps ∧ at_ 46 2 l.counts.corrections ∧
  at_ 48 2 l.counts.limited ∧ at_ 50 2 l.counts.filterClamps ∧ at_ 52 2 l.counts.coasts

/-- The BATCH READ answer of an entry, the use counter being `use` (R152, R161, R184). -/
def BatchLaidOut (e : Fin 8) (x : Option Batch) (use : BitVec 32) (data : List Byte) : Prop :=
  let at_ := holdsNumber data
  data.length = 39 ∧ at_ 1 1 e.val ∧
  match x with
  | none => at_ 2 38 0
  | some b =>
    at_ 3 2 b.number ∧ at_ 5 2 b.l ∧ at_ 7 2 b.a ∧ at_ 9 2 b.b ∧ at_ 11 2 b.rolls ∧ at_ 13 6 b.length ∧
    at_ 19 4 b.firstRoll ∧ at_ 23 4 b.lastRoll ∧ at_ 27 4 b.lastUse.toNat ∧
    match b.closed with
    | none => at_ 2 1 1 ∧ at_ 31 4 0 ∧ at_ 35 1 0 ∧ at_ 36 4 (use - b.lastUse).toNat
    | some (stamp, cause) => at_ 2 1 2 ∧ at_ 31 4 stamp.toNat ∧ at_ 35 1 cause.code.toNat ∧ at_ 36 4 0

/-- The contents of a settings group in a JOB SET body or a JOB READ answer (R178, R179): the settings in the order
of their chapter's table (R9, R22, R60, R61, R81, R93, R113, R127, R151, R165), each in the least number of
bytes for its range; byte 1 is the first of the contents. That the emboss ratio and the sampling divisor travel as
the numbers themselves is deduced (log entry 29). -/
def GroupLaidOut (j : JobSettings) (g : Group) (data : List Byte) : Prop :=
  let at_ := holdsNumber data
  let flags := holdsFlags data
  data.length = g.size ∧
  match g with
  | .scale => at_ 1 3 j.countsPerMetre
  | .reader =>
    let r := j.reader
    at_ 1 2 r.key.lo ∧ at_ 3 2 r.key.hi ∧ at_ 5 2 r.station.lo ∧ at_ 7 2 r.station.hi ∧ at_ 9 2 r.fiducial.lo ∧
    at_ 11 2 r.fiducial.hi ∧ at_ 13 2 r.codeOffset ∧ at_ 15 1 r.pitch ∧ at_ 16 1 r.stations ∧
    ∀ i : Fin 7, at_ (17 + 2 * i) 2 r.nominal[i] ∧ at_ (31 + 2 * i) 2 r.capture[i]
  | .track =>
    let t := j.track
    at_ 1 3 t.nominalRepeat ∧ at_ 4 1 t.tolerance ∧ at_ 5 1 t.coastLimit ∧ at_ 6 3 t.splicerDistance ∧
    at_ 9 3 t.transferDistance
  | .loop i =>
    let l := j.loops[i]
    at_ 1 1 l.filterSet ∧ at_ 2 1 l.deadband ∧ at_ 3 2 l.gain ∧ at_ 5 2 l.maxstep ∧ at_ 7 1 l.settle ∧
    at_ 8 1 l.coastLimit ∧ at_ 9 2 l.tolerance
  | .filter i =>
    let f := j.filters[i]
    at_ 1 1 (match f.form with
      | .odd7 => 0
      | .even8 => 1) ∧
    at_ 2 2 f.h0 ∧ at_ 4 2 f.h1 ∧ at_ 6 2 f.h2 ∧ at_ 8 2 f.h3
  | .trim i =>
    let t := j.trims[i]
    at_ 1 2 t.scale ∧ at_ 3 2 t.rate ∧ flags 5 [t.inverted]
  | .emboss =>
    let e := j.emboss
    at_ 1 3 e.scannerDistance ∧ at_ 4 3 e.nipDistance ∧ at_ 7 2 e.window ∧ at_ 9 2 e.nominal ∧ at_ 11 1 e.ratio ∧
    at_ 12 1 e.lockIndex ∧ at_ 13 2 e.designStretch ∧ at_ 15 2 e.tolerance ∧ at_ 17 2 e.abortLimit ∧
    at_ 19 1 e.abortCount ∧ at_ 20 2 e.minSpeed ∧ at_ 22 3 e.liftLead ∧ at_ 25 3 e.trailing ∧
    at_ 28 2 e.engageTime ∧ at_ 30 2 e.liftTime ∧ flags 32 [e.autoEngage]
  | .shade =>
    let h := j.shade
    at_ 1 3 h.headDistance ∧ at_ 4 2 h.patchOffset ∧ at_ 6 1 h.divisor ∧ at_ 7 1 h.timeout ∧ at_ 8 1 h.minHeads ∧
    at_ 9 2 h.sideTolerance
  | .head i =>
    let h := j.heads[i]
    flags 1 [h.enabled] ∧ at_ 2 2 h.gain ∧ at_ 4 2 h.offL ∧ at_ 6 2 h.offA ∧ at_ 8 2 h.offB
  | .winder =>
    let w := j.winder
    at_ 1 3 w.knifeDistance ∧ at_ 4 2 w.matchOffset ∧ at_ 6 4 w.targetLength ∧ at_ 10 2 w.knifeTime ∧
    at_ 12 2 w.turretTime ∧ at_ 14 1 w.minRoll ∧ at_ 15 1 w.extraWaste ∧ at_ 16 1 w.maxOverlength ∧
    at_ 17 4 w.firstRoll ∧ at_ 21 1 w.design.toNat
  | .grade =>
    let x := j.grade
    at_ 1 2 x.bSpread ∧ at_ 3 2 x.rejectSpread ∧ at_ 5 1 x.bLimit ∧ at_ 6 2 x.batchTolerance ∧ at_ 8 2 x.firstBatch
  | .template i =>
    let codes := [FieldCode.roll, .design, .dnum, .batch, .grade, .len, .reps, .match_, .short, .defects]
    ∀ k, k < 10 → at_ (k + 1) 1 (match j.templates[i][k]? with
      | some f => codes.idxOf f + 1
      | none => 0)
  | .label =>
    let l := j.label
    at_ 1 1 l.normalTemplate ∧ at_ 2 1 l.rejectTemplate ∧ (∀ k : Fin 12, at_ (3 + k) 1 l.designName[k].toNat) ∧
    at_ 15 2 l.replyTime
  | .code => ∀ i : Fin 8,
    let e := j.code[i]
    let field := fun f : CodeField => f.value.toNat + 16 * f.care.toNat
    flags (1 + 4 * i) [e.active] ∧ at_ (2 + 4 * i) 1 (field e.kind) ∧ at_ (3 + 4 * i) 1 (field e.design) ∧
    at_ (4 + 4 * i) 1 (field e.counter + 32 * match e.action with
      | .plainRepeat => 0
      | .jobMark => 1
      | .ignore => 2)

/-- Two sets of settings that differ in one group at most (R178, R179). -/
def GroupReplaced (a j : JobSettings) : Group → Prop
  | .scale => j = { a with countsPerMetre := j.countsPerMetre }
  | .reader => j = { a with reader := j.reader }
  | .track => j = { a with track := j.track }
  | .loop i => j = { a with loops := a.loops.set i j.loops[i] }
  | .filter i => j = { a with filters := a.filters.set i j.filters[i] }
  | .trim i => j = { a with trims := a.trims.set i j.trims[i] }
  | .emboss => j = { a with emboss := j.emboss }
  | .shade => j = { a with shade := j.shade }
  | .head i => j = { a with heads := a.heads.set i j.heads[i] }
  | .winder => j = { a with winder := j.winder }
  | .grade => j = { a with grade := j.grade }
  | .template i => j = { a with templates := a.templates.set i j.templates[i] }
  | .label => j = { a with label := j.label }
  | .code => j = { a with code := j.code }

/-- The pages of STATUS (R182): each page's length and every field at its offset, the entries of a list at offsets
that their number moves on. The widths that R182 does not give, the marks of absence, the order of the head entries
and counts of page 6, and the print reader's counts before the emboss reader's on page 1 are the model's choice (log
entry 20). -/
def StatusLaidOut (s : State) (page : Nat) (data : List Byte) : Prop :=
  let at_ := holdsNumber data
  let flags := holdsFlags data
  let timer := fun (offset : Nat) (x : Timer) => at_ offset 4 x.reload ∧ at_ (offset + 4) 4 x.current
  let counts := fun (offset : Nat) (xs : List Nat) => ∀ (k x : Nat), xs[k]? = some x → at_ (offset + 2 * k) 2 x
  let index := fun (offset : Nat) (x : Option Nat) => flags offset [x.isSome] ∧ at_ (offset + 1) 4 (x.getD 0)
  match page with
  | 0 =>
    data.length = 40 ∧
    at_ 1 1 s.job.state.code.toNat ∧ at_ 2 4 s.epu.timeBase.toNat ∧ at_ 6 1 s.link.orders.length ∧
    at_ 7 1 s.link.notices.length ∧ at_ 8 2 s.link.missed ∧
    (let n := s.link.counts
     counts 10 [n.noise, n.badLength, n.badCheck, n.gap, n.badKind, n.busy]) ∧
    timer 22 s.link.gapTimer ∧ timer 30 s.job.timer ∧
    match s.job.prog.map Programming.target with
    | none => at_ 38 3 0
    | some (ProgTarget.job slot _) => at_ 38 1 1 ∧ at_ 39 1 11 ∧ at_ 40 1 slot.val
    | some (ProgTarget.device _) => at_ 38 1 1 ∧ at_ 39 1 12 ∧ at_ 40 1 255
  | 1 =>
    data.length = 50 ∧
    at_ 1 5 s.epu.u.pos.toNat ∧ at_ 6 5 s.epu.d.pos.toNat ∧ at_ 11 5 s.epu.u.highWater.toNat ∧
    at_ 16 5 s.epu.d.highWater.toNat ∧ flags 21 [s.epu.u.fresh] ∧ flags 22 [s.epu.d.fresh] ∧
    at_ 23 4 s.epu.u.speed ∧ at_ 27 4 s.epu.d.speed ∧
    ∀ i r, (i, r) ∈ [(31, s.mrd.print.counts), (41, s.mrd.emboss.counts)] →
      counts i [r.strays, r.unclaimed, r.droppedEdges, r.corrected, r.uncorrectable]
  | 2 =>
    let n := s.rtk.splices.length
    data.length = 35 + 11 * n ∧
    at_ 1 1 s.rtk.state.code.toNat ∧ at_ 2 4 s.rtk.nextIndex ∧ at_ 6 4 s.lRef ∧
    flags 10 [s.rtk.window.isSome] ∧ at_ 11 6 ((s.rtk.window.map KeyWindow.expected).getD 0).toNat ∧
    at_ 17 2 s.rtk.predictedRun ∧ at_ 19 1 n ∧
    (∀ k x, s.rtk.splices[k]? = some x →
      let i := 20 + 11 * k
      at_ i 5 x.pos.toNat ∧ at_ (i + 5) 1 x.phase.code.toNat ∧ index (i + 6) x.stamp) ∧
    let c := s.rtk.counts
    counts (20 + 11 * n) [c.ignored, c.doubleReads, c.searchDiscards, c.predicted, c.missed, c.unrecorded,
      c.lostSplices, c.unstamped]
  | 3 =>
    data.length = 25 ∧
    (let c := s.rst.late
     counts 1 [s.rst.records.length, s.rst.peak, c.header, c.reg, c.emb, c.shd, c.wnd, s.rst.orphans]) ∧
    flags 17 [s.rst.amend.isSome] ∧ at_ 18 4 ((s.rst.amend.map (·.1)).getD 0) ∧
    at_ 22 4 ((s.rst.amend.map (·.2)).getD 0)
  | 4 =>
    data.length = 136 ∧
    (∀ i : Fin 8, at_ (1 + 16 * i) 2 s.tou.trims[i].pending ∧ at_ (3 + 16 * i) 1 s.tou.trims[i].residue ∧
      flags (4 + 16 * i) [s.tou.trims[i].line] ∧ at_ (5 + 16 * i) 4 s.tou.trims[i].forward.toNat ∧
      at_ (9 + 16 * i) 4 s.tou.trims[i].reverse.toNat ∧ at_ (13 + 16 * i) 2 s.tou.trims[i].saturations ∧
      at_ (15 + 16 * i) 2 s.tou.trims[i].dropped) ∧
    at_ 129 2 s.tou.draw.v ∧ at_ 131 4 s.tou.draw.command ∧ at_ 135 2 s.tou.draw.clamps
  | 5 =>
    let n := s.emc.watch.length
    let m := s.emc.stretch.length
    let q := 13 + 10 * n + 4 * m
    data.length = q + 25 ∧
    at_ 1 1 s.emc.nip.code.toNat ∧ timer 2 s.emc.timer ∧ at_ 10 1 s.emc.lastLift.code.toNat ∧
    at_ 11 1 n ∧
    (∀ k x, s.emc.watch[k]? = some x → at_ (12 + 10 * k) 5 x.pos.toNat ∧ index (17 + 10 * k) x.stamp) ∧
    at_ (12 + 10 * n) 1 m ∧ (∀ k x, s.emc.stretch[k]? = some x → at_ (13 + 10 * n + 4 * k) 4 x) ∧
    flags q [s.emc.lastLD.isSome] ∧ at_ (q + 1) 4 (s.emc.lastLD.getD 0) ∧ at_ (q + 5) 1 s.emc.gap ∧
    let c := s.emc.counts
    counts (q + 6) [s.emc.wrongRun, s.emc.overRun, c.unidentified, c.skipped, c.predicted, c.stretchRejects,
      c.unpaired, c.wrongRepeats, c.missing, c.lostWatch]
  | 6 =>
    let u := s.shu
    data.length = 109 ∧
    at_ 1 1 u.queue.length ∧
    (match u.queue with
      | [] => at_ 2 10 0
      | x :: _ => at_ 2 1 1 ∧ at_ 3 4 x.index ∧ at_ 7 5 x.pos.toNat) ∧
    flags 12 [u.cycle.isSome] ∧ index 13 (u.cycle.map (·.index)) ∧
    (match u.cycle.bind (·.inFlight) with
      | none => at_ 18 2 0
      | some h => at_ 18 1 1 ∧ at_ 19 1 (h.val + 1)) ∧
    (∀ h : Fin 4, flags (20 + 4 * h) [u.heads[h].absent] ∧ at_ (21 + 4 * h) 2 u.heads[h].failures ∧
      flags (23 + 4 * h) [u.heads[h].lamp]) ∧
    timer 36 u.timer ∧
    (let c := u.counts
     counts 44 [c.triggers, c.overflows, c.overruns, c.misses, c.samples, c.clamped, c.side, c.stale, c.bad]) ∧
    ∀ h : Fin 4,
      let c := u.heads[h].counts
      counts (62 + 12 * h) [c.polls, c.ok, c.lamp, c.notReady, c.failures, c.cutShort]
  | 7 =>
    let w := s.wnc
    let taken := fun x : Record => x.wnd ≠ none ∨ x.index ∈ w.held
    let named := fun i : Nat => at_ 24 1 1 ∧ at_ 25 4 i
    data.length = 71 ∧
    at_ 1 1 w.state.code.toNat ∧ flags 2 [w.gateOpen] ∧ flags 3 [w.knifeOn] ∧ flags 4 [w.turretOn] ∧
    flags 5 [w.stopOn] ∧ at_ 6 1 ((w.winding.map (·.val)).getD 255) ∧
    (match w.armed with
      | none => at_ 7 17 0
      | some a => at_ 7 1 1 ∧ at_ 8 1 a.kind.code.toNat ∧ index 9 a.closing ∧ at_ 14 5 a.cutPos.toNat ∧
          at_ 19 5 a.firePos.toNat) ∧
    (w.state ≠ .threading ∨ w.start = .none → at_ 24 5 0) ∧
    (∀ i, w.state = .threading → w.start = .from_ i →
      ((∀ x ∈ s.rst.records, x.index < i ∨ taken x) → at_ 24 5 0) ∧
      ∀ xs r ys, s.rst.records = xs ++ r :: ys → (∀ x ∈ xs, x.index < i ∨ taken x) → i ≤ r.index →
        ¬ taken r → named r.index) ∧
    (∀ i n, w.state = .threading → w.start = .cutOut i n →
      match cutOutTarget n n (s.rst.records.dropWhile fun x => x.index < i) with
      | none => at_ 24 5 0
      | some k => named k) ∧
    flags 29 [w.waste.isSome] ∧ at_ 30 4 ((w.waste.map (·.1)).getD 0) ∧
    at_ 34 4 ((w.waste.map (·.2)).getD 0) ∧ timer 38 w.knife ∧ timer 46 w.turret ∧
    let c := w.counts
    counts 54 [c.cut, c.short, c.wasted, c.startCuts, c.deferrals, c.startDeferrals, c.doffs, c.ignoredDoffs,
      c.lengthRolls]
  | 8 =>
    data.length = 20 ∧
    at_ 1 2 s.gru.nextBatch ∧ at_ 3 4 s.gru.use.toNat ∧
    let c := s.gru.counts
    counts 7 [c.gradedA, c.gradedB, c.gradedR, c.unknown, c.opened, c.lru, c.host]
  | 9 =>
    let bytes := s.lbu.composed.getD []
    data.length = 32 + bytes.length ∧
    at_ 1 1 s.lbu.state.code.toNat ∧ timer 2 s.lbu.timer ∧ at_ 10 1 s.lbu.queue.length ∧
    (match s.lbu.queue with
      | [] => at_ 11 1 255 ∧ at_ 12 4 0
      | i :: _ => at_ 11 1 i.val ∧ at_ 12 4 (s.wnc.numberIn i)) ∧
    at_ 16 1 bytes.length ∧ (∀ k b, bytes[k]? = some b → at_ (17 + k) 1 b.toNat) ∧
    let c := s.lbu.counts
    counts (17 + bytes.length) [c.sent, c.resends, c.confirmed, c.skipped, c.faults, c.timeouts, c.ignored, c.bad]
  | _ => False

/-! ### Bounds -/

/-- Every trim output holds P within ±4,095 and r within ±127 (R80). -/
def TrimsBounded (s : State) : Prop :=
  ∀ i : Fin 8, s.tou.trims[i].pending.natAbs ≤ 4095 ∧ s.tou.trims[i].residue.natAbs ≤ 127

/-- The order queue holds up to 4 orders, the notice queue up to 32 notices, and up to 8 answers are ready to
send (R174, R175). -/
def LinkBounded (s : State) : Prop :=
  s.link.orders.length ≤ 4 ∧ s.link.notices.length ≤ 32 ∧ s.link.answers.length ≤ 8

/-- Every trim output's accumulator is 0 with no step pending, and never above 29,999 (R84). -/
def TrimsInTime (s : State) : Prop :=
  ∀ i : Fin 8, (s.tou.trims[i].pending = 0 → s.tou.trims[i].acc = 0) ∧ s.tou.trims[i].acc ≤ 29999

/-- No frame is left that a free transmitter could begin, and an order waits only while 8 answers are held
(R174, R176). -/
def OrdersServed (s : State) : Prop :=
  pump s = s ∧ (s.link.orders = [] ∨ 8 ≤ s.link.answers.length)

/-- Every setting within its range and every condition between settings, as the chapters give them (R9, R11, R22, R60,
R61, R81, R93, R113, R127, R151, R165, R178). -/
def SettingsInRange (j : JobSettings) : Prop :=
  let window := fun w : Window => 8 ≤ w.lo ∧ w.lo ≤ w.hi ∧ w.hi ≤ 2000
  let r := j.reader
  let t := j.track
  let e := j.emboss
  let w := j.winder
  let fits := fun groupEnd : Int => groupEnd * 100 < 2 * (t.nominalRepeat : Int) * (100 - t.tolerance)
  (10000 ≤ j.countsPerMetre ∧ j.countsPerMetre ≤ 80000) ∧
  (window r.key ∧ window r.station ∧ window r.fiducial ∧ 1 ≤ r.codeOffset ∧ r.codeOffset ≤ 65535 ∧
    20 ≤ r.pitch ∧ r.pitch ≤ 200 ∧ 2 ≤ r.stations ∧ r.stations ≤ 8 ∧
    ∀ i : Fin 7, r.nominal[i] ≤ 65535 ∧ 1 ≤ r.capture[i] ∧ r.capture[i] ≤ 4095) ∧
  ((r.key.hi < r.fiducial.lo ∨ r.fiducial.hi < r.key.lo) ∧ r.key.hi < 2 * r.codeOffset ∧
    fits (2 * r.codeOffset + 46 * r.pitch) ∧
    let lo := fun i : Fin 7 => 2 * (r.nominal[i] : Int) - 2 * r.capture[i]
    let hi := fun i : Fin 7 => 2 * (r.nominal[i] : Int) + 2 * r.capture[i]
    ∀ i : Fin 7, i.val + 2 ≤ r.stations →
      ((r.key.hi + r.station.hi : Nat) : Int) ≤ lo i ∧
      (hi i < 2 * (r.codeOffset : Int) - r.pitch ∨ 2 * (r.codeOffset : Int) + 47 * r.pitch < lo i) ∧
      (∀ k : Fin 7, k.val + 2 ≤ r.stations → k ≠ i → hi i < lo k ∨ hi k < lo i) ∧ fits (hi i + r.station.hi)) ∧
  (1000 ≤ t.nominalRepeat ∧ t.nominalRepeat ≤ 200000 ∧ 1 ≤ t.tolerance ∧ t.tolerance ≤ 10 ∧
    1 ≤ t.coastLimit ∧ t.coastLimit ≤ 8 ∧ t.splicerDistance ≤ 8000000 ∧ 1000 ≤ t.transferDistance ∧
    t.transferDistance ≤ 8000000) ∧
  (∀ i : Fin 8, let l := j.loops[i]
    l.filterSet ≤ 3 ∧ l.deadband ≤ 255 ∧ l.gain ≤ 256 ∧ 1 ≤ l.maxstep ∧ l.maxstep ≤ 1023 ∧ 1 ≤ l.settle ∧
    l.settle ≤ 63 ∧ 1 ≤ l.coastLimit ∧ l.coastLimit ≤ 15 ∧ 1 ≤ l.tolerance ∧
    l.tolerance ≤ if i = 7 then 4095 else 2047) ∧
  (∀ i : Fin 4, ∀ h ∈ [j.filters[i].h0, j.filters[i].h1, j.filters[i].h2, j.filters[i].h3],
    -512 ≤ h ∧ h ≤ 511) ∧
  (∀ i : Fin 8, 1 ≤ j.trims[i].scale ∧ j.trims[i].scale ≤ 4095 ∧ 100 ≤ j.trims[i].rate ∧
    j.trims[i].rate ≤ 20000) ∧
  (1000 ≤ e.scannerDistance ∧ e.scannerDistance ≤ 8000000 ∧ 1 ≤ e.nipDistance ∧ e.nipDistance ≤ 8000000 ∧
    e.nipDistance < e.scannerDistance ∧ 50 ≤ e.window ∧ e.window ≤ 20000 ∧ e.nominal ≤ 65535 ∧
    (e.ratio = 1 ∨ e.ratio = 2 ∨ e.ratio = 4) ∧ e.lockIndex < e.ratio ∧ -20000 ≤ e.designStretch ∧
    e.designStretch ≤ 20000 ∧ 1 ≤ e.tolerance ∧ e.tolerance ≤ 2047 ∧ 1 ≤ e.abortLimit ∧ e.abortLimit ≤ 4095 ∧
    1 ≤ e.abortCount ∧ e.abortCount ≤ 15 ∧ e.minSpeed ≤ 4000 ∧ 1 ≤ e.liftLead ∧ e.liftLead ≤ 1000000 ∧
    e.trailing ≤ 1000000 ∧ 1 ≤ e.engageTime ∧ e.engageTime ≤ 65535 ∧ 1 ≤ e.liftTime ∧ e.liftTime ≤ 65535) ∧
  (let h := j.shade
   1 ≤ h.headDistance ∧ h.headDistance ≤ 8000000 ∧ h.headDistance < e.nipDistance ∧ h.patchOffset ≤ 65535 ∧
   (h.divisor = 1 ∨ h.divisor = 2 ∨ h.divisor = 4 ∨ h.divisor = 8) ∧ 10 ≤ h.timeout ∧ h.timeout ≤ 200 ∧
   1 ≤ h.minHeads ∧ h.minHeads ≤ 4 ∧ h.sideTolerance ≤ 10000) ∧
  (∀ i : Fin 4, let h := j.heads[i]
    3072 ≤ h.gain ∧ h.gain ≤ 5120 ∧ ∀ x ∈ [h.offL, h.offA, h.offB], -2000 ≤ x ∧ x ≤ 2000) ∧
  (1000 ≤ w.knifeDistance ∧ w.knifeDistance ≤ 8000000 ∧
    2 * e.window + (r.codeOffset + 23 * r.pitch) < w.knifeDistance ∧ w.matchOffset ≤ 65535 ∧
    w.matchOffset < t.nominalRepeat ∧ 4000 ≤ w.targetLength ∧ w.targetLength ≤ 40000000 ∧
    1 ≤ w.knifeTime ∧ w.knifeTime ≤ 65535 ∧ 1 ≤ w.turretTime ∧ w.turretTime ≤ 65535 ∧ 1 ≤ w.minRoll ∧
    w.minRoll ≤ 40 ∧ w.extraWaste ≤ 4 ∧ w.maxOverlength ≤ 20 ∧ 1 ≤ w.firstRoll ∧ w.firstRoll ≤ 4294967295) ∧
  (let g := j.grade
   g.bSpread ≤ 10000 ∧ g.rejectSpread ≤ 10000 ∧ g.bLimit ≤ 20 ∧ g.batchTolerance ≤ 10000 ∧
   1 ≤ g.firstBatch ∧ g.firstBatch ≤ 65535) ∧
  (∀ i : Fin 4, 1 ≤ j.templates[i].length ∧ j.templates[i].length ≤ 10) ∧
  let l := j.label
  l.normalTemplate ≤ 3 ∧ l.rejectTemplate ≤ 3 ∧ 1000 ≤ l.replyTime ∧ l.replyTime ≤ 50000 ∧
    ∀ i : Fin 12, 0x20 ≤ l.designName[i].toNat ∧ l.designName[i].toNat ≤ 0x7E ∧ l.designName[i] ≠ 0x3B

/-- Settings in force, stored or being programmed that no order refuses VALUE. -/
def SettingsValid (s : State) : Prop :=
  s.act.valid = true ∧ (∀ i : Fin 4, ∀ j, s.store.jobs[i] = some j → j.valid = true) ∧
    ∀ p i j, s.job.prog = some p → p.target = .job i j → j.valid = true

/-- A loop holds up to 8 samples within ±4,095, its last good sample and its last filter output within
±4,095, a miss count up to 255 and a settle counter up to 63 (R62, R72). -/
def Loop.Bounded (l : Loop) : Prop :=
  l.history.length ≤ 8 ∧ (∀ x ∈ l.history, x.natAbs ≤ 4095) ∧ (∀ x, l.lastGood = some x → x.natAbs ≤ 4095) ∧
    l.missRun ≤ 255 ∧ l.settle ≤ 63 ∧ ∀ o, l.last = some o → o.f.natAbs ≤ 4095

/-- Every loop is within its bounds. -/
def LoopsBounded (s : State) : Prop := ∀ i : Fin 8, s.rlu.loops[i].Bounded

/-! ### The order of the store -/

/-- Indices strictly increase from each record to the next. -/
def risingIndices : List Record → Prop
  | a :: b :: rs => a.index < b.index ∧ risingIndices (b :: rs)
  | _ => True

/-- Each index exceeds the one before it by exactly 1, unless the record carries GAP_BEFORE (R40). -/
def gapsMarked : List Record → Prop
  | a :: b :: rs => (b.index = a.index + 1 ∨ b.gapBefore = true) ∧ gapsMarked (b :: rs)
  | _ => True

/-- The store holds at most 512 records, oldest first with strictly increasing indices, none beyond the last
key's (R23, R40). -/
def StoreOrdered (s : State) : Prop :=
  s.rst.records.length ≤ 512 ∧ risingIndices s.rst.records ∧
    ∀ r ∈ s.rst.records, ∃ l, s.rtk.last = some l ∧ r.index ≤ l.index

/-! ### The label queue and the roll directory -/

/-- Slot `i` is in a phase with a roll of a number. -/
def holdsRoll (s : State) (i : Fin 12) (p : SlotPhase) (number : Nat) : Prop :=
  ∃ r, s.wnc.slots[i] = .used p r ∧ r.number = number

/-- The label queue holds exactly the slots in LABEL_PENDING, in strictly increasing roll-number order, and is
empty while the labeller is IDLE, which then holds no label composed; the slots in CUT and WINDING hold later
rolls, at most one each, and every number is below the next one (R128, R129, R164, R167). -/
def LabelsInOrder (s : State) : Prop :=
  (∀ i, i ∈ s.lbu.queue ↔ ∃ n, holdsRoll s i .labelPending n) ∧
  s.lbu.queue.Pairwise (fun i j => s.wnc.numberIn i < s.wnc.numberIn j) ∧
  (∀ i n, holdsRoll s i .cut n → ∀ j m, holdsRoll s j .labelPending m → m < n) ∧
  (∀ i n, holdsRoll s i .cut n → ∀ j m, holdsRoll s j .cut m → i = j) ∧
  (∀ i n, holdsRoll s i .winding n →
    s.wnc.winding = some i ∧
      ∀ j m, holdsRoll s j .labelPending m ∨ holdsRoll s j .cut m → m < n) ∧
  (∀ i p n, holdsRoll s i p n → n < s.wnc.nextRoll) ∧
  (s.lbu.state = .idle → s.lbu.queue = [] ∧ s.lbu.composed = none)

/-- The winder has a winding slot, in WINDING, exactly while a roll is on the winding spindle, and with no job
on the line it is IDLE (R130). -/
def WinderSound (s : State) : Prop :=
  (∀ i, s.wnc.winding = some i → ∃ n, holdsRoll s i .winding n) ∧
  (s.wnc.state ≠ .winding → s.wnc.state ≠ .cutArmed → s.wnc.winding = none) ∧
  (s.job.state.onLine = false → s.wnc.state = .idle)

/-! ### The nip -/

/-- While a watched splice is in its clearance zone the nip is neither ENGAGING nor ENGAGED (R108). -/
def NipClear (s : State) : Prop := ∀ w ∈ s.emc.watch, s.inZone w = true → s.emc.nip.valve = false

end Sys2Proof.Machine
end

