-- ==== Sys2Proof/Certificates/Slice0/Obligations.lean ====
section
/-! DEFINITION. The statements for the provers, one definition each. Where a next state is written out, a field
that is not named is as it was; `pump` is the end of an event, where a free transmitter begins the next frame,
which is deduced (log entry 16); `raise` is a notice raised, and `accept` and `refuse` an answer made ready
(AnswersAndNoticesAreSent says what each does). An event of the line is stated in the operations that it takes
one after another, and each operation in a statement of its own. -/

open Sys2Proof Sys2Proof.Machine

/-! ### The queue of commands and the link -/

/-- A step with a command waiting runs the one at the front on the state with the rest of the queue. That the
block idles with no command waiting is the model's choice (log entry 1). -/
def Obligations.StepRunsFrontCommand : Prop :=
  (∀ (c : Instr) (rest : List Instr) (s : State), s.pending = c :: rest →
    step s = exec c { s with pending := rest }) ∧
  ∀ s : State, s.pending = [] → step s = .next s

/-- No command stops the block: each answers a next state from every state. A reading order that is taken and names
what there is completes: its effect is an accepted answer and nothing else, for RESTART in every state and for
STATUS for every page up to 9 (R55, R76, R149, R161, R179, R182); ReadingOrdersChangeNothing says what each answer
holds. -/
def Obligations.EveryCommandCompletes : Prop :=
  (∀ (c : Instr) (s : State), ∃ t, exec c s = .next t) ∧
  ∀ (tag : Byte) (s : State), Takeable s →
    let completes := fun (kind : Byte) (i : Instr) => ∃ data, exec i s = .next (pump (accept kind tag data s))
    completes 1 (.ident tag) ∧
    (∀ page : Byte, page.toNat ≤ 9 → completes 2 (.status tag page)) ∧
    completes 3 (.restart tag) ∧
    (∀ source group : Byte, group.toNat ≤ 36 →
      source = 4 ∨ (∃ (i : Fin 4) (j : JobSettings), source.toNat = i.val ∧ s.store.jobs[i] = some j) →
      completes 10 (.jobRead tag source group)) ∧
    (∀ loop : Byte, 1 ≤ loop.toNat → loop.toNat ≤ 8 → completes 15 (.loopRead tag loop)) ∧
    (∀ (selector : Byte) (index : BitVec 32),
      (selector = 0 ∧ ∃ r ∈ s.rst.records, r.index = index.toNat) ∨
        ((selector = 1 ∨ selector = 2) ∧ s.rst.records ≠ []) ∨
        (selector = 3 ∧ ∃ r ∈ s.rst.records, index.toNat < r.index) →
      completes 21 (.repeatRead tag selector index)) ∧
    (∀ (choice : Byte) (number : BitVec 32),
      (choice = 0 ∧ number.toNat < 12) ∨ (choice = 1 ∧ ∃ i p, holdsRoll s i p number.toNat) →
      completes 22 (.rollRead tag choice number)) ∧
    ∀ (choice : Byte) (number : BitVec 16),
      (choice = 0 ∧ number.toNat < 8) ∨
        (choice = 1 ∧ ∃ (e : Fin 8) (b : Batch), s.gru.table[e] = some b ∧ b.number = number.toNat) →
      completes 23 (.batchRead tag choice number)

/-- What an answer carries, how answers and notices queue, and what is sent first. An accepted order's answer
carries the result byte 0 and its data after it; a refused order's carries the number of its refusal code
alone; both the order's kind + 128 and its tag, and both are made ready behind the answers already held
(R172, R174). A notice joins a queue of fewer than 32 with the missed count and the time base, and the missed
count is then 0; at 32 it is dropped and the missed count rises by one, stopping at 65,535 (R175). A free
transmitter begins the oldest ready answer, or the oldest notice when no answer is ready; one frame at a
time (R176). -/
def Obligations.AnswersAndNoticesAreSent : Prop :=
  (∀ (kind tag : Byte) (data : List Byte) (s : State),
    accept kind tag data s =
      { s with link := { s.link with answers := s.link.answers ++ [⟨kind + 128, tag, 0 :: data⟩] } } ∧
    ∀ r n, (r, n) ∈ [(Refused.length, (1 : Byte)), (.kind, 2), (.value, 3), (.state, 4), (.busy, 5),
        (.protected_, 6), (.notFound, 7), (.clearance, 8)] →
      refuse kind tag r s =
        { s with link := { s.link with answers := s.link.answers ++ [⟨kind + 128, tag, [n]⟩] } }) ∧
  ∀ s : State,
    (∀ b, s.link.notices.length < 32 → raise b s =
      { s with link := { s.link with
          notices := s.link.notices ++ [⟨s.link.missed, s.epu.timeBase, b⟩], missed := 0 } }) ∧
    (∀ b, 32 ≤ s.link.notices.length → raise b s =
      { s with link := { s.link with missed := min (s.link.missed + 1) 65535 } }) ∧
    (∀ x, s.link.sending = some x → pump s = s) ∧
    (s.link.sending = none →
      (∀ a as, s.link.answers = a :: as →
        pump s = { s with link := { s.link with sending := some (.answer a), answers := as } }) ∧
      (s.link.answers = [] →
        (∀ n ns, s.link.notices = n :: ns →
          pump s = { s with link := { s.link with sending := some (.notice n), notices := ns } }) ∧
        (s.link.notices = [] → pump s = s)))

/-- An order that cannot be taken when it arrives, because another order waits or 8 answers are held, joins the
order queue at its end; with 4 waiting it is counted and answered BUSY, an answer that is not made while 8
are held (R174). That an order that nothing keeps waiting is taken in the event of its arrival is the
model's choice (log entry 1), and that the busy count stops at 65,535 is deduced (log entry 38); what an order
does that is taken is stated of each order. -/
def Obligations.OrdersWaitTheirTurn : Prop :=
  ∀ (i : Instr) (f : Frame) (s : State), orderFrame i = some f →
    let counted := { s.link with
      counts := { s.link.counts with busy := min (s.link.counts.busy + 1) 65535 } }
    (s.link.orders ≠ [] ∨ 8 ≤ s.link.answers.length → s.link.orders.length < 4 →
      exec i s = .next (pump { s with link := { s.link with orders := s.link.orders ++ [f] } })) ∧
    (4 ≤ s.link.orders.length → 8 ≤ s.link.answers.length →
      exec i s = .next (pump { s with link := counted })) ∧
    (4 ≤ s.link.orders.length → s.link.answers.length < 8 →
      exec i s = .next (pump (refuse f.kind f.tag .busy { s with link := counted })))

/-- An order's frame reads back as that order: no bit of its tag or of its body is lost (R172, R184). -/
def Obligations.OrderFrameRoundTrip : Prop :=
  ∀ (i : Instr) (f : Frame), orderFrame i = some f →
    ofFrame f = some i ∧ 1 ≤ f.kind.toNat ∧ f.kind.toNat ≤ 26

/-- The bytes of any order frame whose body fits, sent to a waiting receiver, deliver that frame with its check
found right: while 8 answers are held it joins the end of the order queue; with no order waiting and fewer
held it is taken, as its order or, when its body's length is not one its kind allows, as a LENGTH refusal
(R172, R173, R174). That it is taken in the event of its last byte is the model's choice (log entry 1). -/
def Obligations.WireBytesQueueTheOrder : Prop :=
  ∀ (f : Frame) (s : State), 1 ≤ f.kind.toNat → f.kind.toNat ≤ 26 → f.body.length ≤ 240 →
    s.link.assembling = none → pump s = s →
    let w := { s with link := { s.link with gapTimer := Timer.idle 30 } }
    (8 ≤ s.link.answers.length → s.link.orders.length < 4 →
      runAll (hostBytes f.wire) s = .next { w with link := { w.link with orders := s.link.orders ++ [f] } }) ∧
    (s.link.answers.length < 8 → s.link.orders = [] →
      (∀ i, ofFrame f = some i → runAll (hostBytes f.wire) s = exec i w) ∧
      (ofFrame f = none → runAll (hostBytes f.wire) s = .next (pump (refuse f.kind f.tag .length w))))

/-- A byte of the host link in each state of the receiver, the expiry of the frame gap timer, and a complete
frame whose check differs or whose kind is no order's (R173, R174). That the start byte starts the gap timer and
a bad length stops it, and that no answer is kept for a frame of no order's kind while 8 are held, is deduced
(log entry 15), and so is that the link counts stop at 65,535 (log entry 38); that an expiry with the timer not
run out changes nothing is the model's choice (log entry 1). -/
def Obligations.ReceiverTakesBytes : Prop :=
  (∀ (b : Byte) (s : State),
    (s.link.assembling = none → b = 0xC3 →
      exec (.hostByteReceived b) s = .next (pump { s with link := { s.link with
        assembling := some [], gapTimer := s.link.gapTimer.start 30 } })) ∧
    (s.link.assembling = none → b ≠ 0xC3 →
      exec (.hostByteReceived b) s = .next (pump { s with link := { s.link with
        counts := { s.link.counts with noise := min (s.link.counts.noise + 1) 65535 } } })) ∧
    (s.link.assembling = some [] → 2 ≤ b.toNat ∧ b.toNat ≤ 242 →
      exec (.hostByteReceived b) s = .next (pump { s with link := { s.link with
        assembling := some [b], gapTimer := s.link.gapTimer.start 30 } })) ∧
    (s.link.assembling = some [] → ¬ (2 ≤ b.toNat ∧ b.toNat ≤ 242) →
      exec (.hostByteReceived b) s = .next (pump { s with link := { s.link with
        assembling := none, gapTimer := s.link.gapTimer.stop
        counts := { s.link.counts with badLength := min (s.link.counts.badLength + 1) 65535 } } })) ∧
    (∀ n bs, s.link.assembling = some (n :: bs) → bs.length + 2 < n.toNat + 3 →
      exec (.hostByteReceived b) s = .next (pump { s with link := { s.link with
        assembling := some (n :: bs ++ [b]), gapTimer := s.link.gapTimer.start 30 } })) ∧
    (s.link.gapTimer.due = true → s.link.assembling ≠ none →
      exec .frameGapTimerExpiry s = .next (pump { s with link := { s.link with
        assembling := none, gapTimer := s.link.gapTimer.stop
        counts := { s.link.counts with gap := min (s.link.counts.gap + 1) 65535 } } })) ∧
    (s.link.gapTimer.due = true → s.link.assembling = none →
      exec .frameGapTimerExpiry s = .next (pump { s with link := { s.link with
        gapTimer := s.link.gapTimer.stop } })) ∧
    (s.link.gapTimer.due = false → exec .frameGapTimerExpiry s = .next (pump s))) ∧
  ∀ (n : Byte) (bs : List Byte) (b : Byte) (s : State),
    s.link.assembling = some (n :: bs) → bs.length + 2 = n.toNat + 3 → 2 ≤ n.toNat →
    let all := n :: bs ++ [b]
    let frame := all.take (n.toNat + 1)
    let kind := byteAt all 1
    let tag := byteAt all 2
    let w := { s with link := { s.link with assembling := none, gapTimer := s.link.gapTimer.stop } }
    let counted := { w with link := { w.link with
      counts := { w.link.counts with badKind := min (w.link.counts.badKind + 1) 65535 } } }
    let unknown := kind = 0 ∨ (27 ≤ kind.toNat ∧ kind.toNat ≤ 126)
    (crcBytes frame ≠ all.drop (n.toNat + 1) →
      exec (.hostByteReceived b) s = .next (pump { w with link := { w.link with
        counts := { w.link.counts with badCheck := min (w.link.counts.badCheck + 1) 65535 } } })) ∧
    (crcBytes frame = all.drop (n.toNat + 1) → 127 ≤ kind.toNat →
      exec (.hostByteReceived b) s = .next (pump counted)) ∧
    (crcBytes frame = all.drop (n.toNat + 1) → unknown → s.link.answers.length < 8 →
      exec (.hostByteReceived b) s = .next (pump (refuse kind tag .kind counted))) ∧
    (crcBytes frame = all.drop (n.toNat + 1) → unknown → 8 ≤ s.link.answers.length →
      exec (.hostByteReceived b) s = .next (pump counted))

/-- The end of a frame frees the transmitter, which begins the next; an answer kept while 8 were held is made ready
when there is room, and the orders that wait are taken then, first in first out, each with those behind it still
waiting, until none is left or 8 answers are held; and the end of an accepted RESTART's answer is followed by a cold
reset (R174, R176, R182). What an order does that is taken is what its command does with nothing else waiting; it
leaves the orders behind it as they are and makes at most one answer ready; STATUS alone reads how many wait. That the
8 do not count the answer being sent, so that there is room as soon as the next frame is begun, and that the kept
answer goes before a waiting order, is deduced (log entry 15); that the orders are taken in the event that makes the
room (log entry 1), that a STATUS order taken is not among the waiting orders that its page 0 counts, and the widths
of the pages that R182 does not give (log entry 20), are the model's choice. -/
def Obligations.FrameEndFreesTransmitter : Prop :=
  ∀ s : State,
    let freed := pump { s with link := { s.link with sending := none } }
    let out := exec .frameTransmitted s
    (s.link.sending = none → out = .next (pump s)) ∧
    (∀ x, s.link.sending = some x → x.frame.isRestart = false →
      (s.job.waiting = none → s.link.orders = [] ∨ 8 ≤ freed.link.answers.length → out = .next freed) ∧
      (∀ g i, s.job.waiting = none → s.link.orders = [g] → freed.link.answers.length < 8 → ofFrame g = some i →
        out = exec i { freed with link := { freed.link with orders := [] } }) ∧
      (∀ g, s.job.waiting = none → s.link.orders = [g] → freed.link.answers.length < 8 → ofFrame g = none →
        out = .next (pump (refuse g.kind g.tag .length
          { freed with link := { freed.link with orders := [] } }))) ∧
      (∀ f a as, s.job.waiting = some f → s.link.answers = a :: as → s.link.answers.length ≤ 8 →
        s.link.orders = [] ∨ s.link.answers.length = 8 →
        out = .next { s with
          link := { s.link with sending := some (.answer a), answers := as ++ [f] }
          job := { s.job with waiting := none } })) ∧
    (∀ x, s.link.sending = some x → x.frame.isRestart = false →
      let w := match s.job.waiting with
        | none => freed
        | some f => if freed.link.answers.length < 8 then { freed with
              link := { freed.link with answers := freed.link.answers ++ [f] }
              job := { s.job with waiting := none } }
            else freed
      out = .next (pump (serve w))) ∧
    (s.link.orders = [] ∨ 8 ≤ s.link.answers.length → serve s = s) ∧
    (∀ g rest, s.link.orders = g :: rest → s.link.answers.length < 8 →
      let left := { s with link := { s.link with orders := rest } }
      (ofFrame g = none → serve s = serve (refuse g.kind g.tag .length left)) ∧
      ∀ i, ofFrame g = some i → serve s = serve (takeOrder i left)) ∧
    (∀ i f, orderFrame i = some f →
      (Takeable s → exec i s = .next (pump (takeOrder i s))) ∧
      (takeOrder i s).link.orders = s.link.orders ∧
      (∃ more, (takeOrder i s).link.answers = s.link.answers ++ more ∧ more.length ≤ 1) ∧
      ((∀ tag page, i ≠ .status tag page) → ∀ os,
        let t := takeOrder i s
        takeOrder i { s with link := { s.link with orders := os } } = { t with link := { t.link with orders := os } }) ∧
      ∀ tag page, i = .status tag page →
        (9 < page.toNat → takeOrder i s = refuse 2 tag .value s) ∧
        (page.toNat ≤ 9 → ∃ data, StatusLaidOut s page.toNat data ∧ takeOrder i s = accept 2 tag data s)) ∧
    (∀ tag, s.link.sending = some (.answer ⟨131, tag, [0]⟩) → out = exec .coldReset s)

/-! ### Reset, and the bounds every step keeps -/

/-- What a cold reset with a blank job store leaves (R2 to R6, R23, R35, R52, R54, R62, R80, R90, R94, R108,
R116, R117, R128 to R130, R152, R164, R170, R173, R177, R183), and that it meets every invariant that is
stated of every step. The values of log entries 3, 5 and 6 (the reloads of two timers that no single setting
gives, and the scanner levels) are the model's, and that the START notice is being sent already is deduced
(log entry 16). -/
def Obligations.ResetValues : Prop :=
  let s := State.reset
  (∀ c ∈ [s.epu.u, s.epu.d], c.pos = 0 ∧ c.highWater = 0 ∧ c.fresh = true ∧ c.speed = 0) ∧ s.epu.timeBase = 0 ∧
  (∀ t ∈ [s.emc.timer, s.wnc.knife, s.wnc.turret, s.shu.timer, s.lbu.timer, s.link.gapTimer, s.job.timer],
    t.current = 0 ∧ t.running = false ∧ t.due = false) ∧
  [s.wnc.knife.reload, s.wnc.turret.reload, s.shu.timer.reload, s.lbu.timer.reload, s.link.gapTimer.reload] =
    [125, 15000, 40, 8000, 30] ∧
  s.rtk.state = .idle ∧ s.rtk.nextIndex = 0 ∧ s.rtk.last = none ∧ s.rtk.history = [] ∧ s.rtk.splices = [] ∧
  s.rst.records = [] ∧ s.rst.amend = none ∧
  (∀ i : Fin 8, s.rlu.loops[i].state = .off ∧ s.rlu.loops[i].history = [] ∧ s.tou.trims[i].pending = 0 ∧
    s.tou.trims[i].residue = 0 ∧ s.tou.trims[i].acc = 0 ∧ s.gru.table[i] = none) ∧
  s.tou.draw.v = 32768 ∧ s.tou.draw.command = 0 ∧
  s.emc.nip = .lifted ∧ s.emc.lastLift = .host ∧ s.emc.watch = [] ∧ s.emc.pairKey = none ∧
  s.shu.queue = [] ∧ s.shu.cycle = none ∧ (∀ h : Fin 4, s.shu.heads[h].absent = false) ∧
  s.wnc.state = .idle ∧ s.wnc.gateOpen = true ∧ s.wnc.knifeOn = false ∧ s.wnc.turretOn = false ∧
  s.wnc.stopOn = false ∧ (∀ i : Fin 12, s.wnc.slots[i] = .free) ∧ s.wnc.nextRoll = 1 ∧
  s.gru.nextBatch = 1 ∧ s.gru.use = 0 ∧ s.lbu.state = .idle ∧ s.lbu.queue = [] ∧
  s.link.rate = 1 ∧ s.link.orders = [] ∧ s.link.counts = ⟨0, 0, 0, 0, 0, 0⟩ ∧
  s.link.sending = some (.notice ⟨0, 0, .job .standby .standby .start⟩) ∧
  s.job.state = .standby ∧ s.job.prog = none ∧ s.act = defaultSettings ∧ s.pending = [] ∧
  TrimsBounded s ∧ TrimsInTime s ∧ LinkBounded s ∧ OrdersServed s ∧ SettingsValid s ∧ LoopsBounded s ∧
  StoreOrdered s ∧ gapsMarked s.rst.records ∧ LabelsInOrder s ∧ WinderSound s ∧ NipClear s

/-- Every step keeps each pending count within ±4,095 and each residue within ±127, each accumulator at most
29,999 and 0 with nothing pending, the order queue, the notice queue and the answers held within their
sizes, and no order waiting but while 8 answers are held (R80, R84, R174, R175). R80 has the accumulator from 0
to 9,999 once the steps of a unit are emitted: that it may stand at up to 29,999 until they are, by a command
of their own or at the next unit, and that an order is taken in the event that lets it be taken, is the
model's choice (log entry 1); that a free transmitter begins a frame at the end of each event is deduced (log
entry 16). -/
def Obligations.StepKeepsOutputsAndLinkBounded : Prop :=
  ∀ s t : State, step s = .next t →
    (TrimsBounded s → TrimsBounded t) ∧ (LinkBounded s → LinkBounded t) ∧
    (SettingsValid s → TrimsInTime s → TrimsInTime t) ∧ (OrdersServed s → OrdersServed t)

/-- Every step keeps the active settings, the stored ones and those being programmed within their ranges and
conditions (R9, R22, R60, R61, R81, R93, R113, R127, R151, R165, R177, R179 to R181). That a JOB SET is refused that
breaks a condition stated in another group's chapter, such as a nominal repeat or a code lag against R127, is deduced
(log entry 11). -/
def Obligations.StepKeepsSettingsValid : Prop :=
  ∀ s t : State, SettingsValid s → step s = .next t → SettingsValid t

/-- Every step keeps every loop's history, last good sample, miss count, settle counter and filter output
within their bounds (R62, R71, R72). -/
def Obligations.StepKeepsLoopsBounded : Prop :=
  ∀ s t : State, SettingsValid s → LoopsBounded s → step s = .next t → LoopsBounded t

/-- Every step keeps the store at most 512 records long, with strictly increasing indices and none beyond the
last key's, and keeps each index exactly 1 above the one before it unless the record carries GAP_BEFORE (R23, R40,
R43, R51; after a freeing in several runs by log entry 28's reading). -/
def Obligations.StepKeepsStoreOrdered : Prop :=
  ∀ s t : State, step s = .next t →
    (StoreOrdered s → StoreOrdered t) ∧ (gapsMarked s.rst.records → gapsMarked t.rst.records)

/-- Every step keeps the label queue holding exactly the rolls in LABEL_PENDING in roll-number order, the queue
empty and no label composed while the labeller is IDLE, and the winder's winding slot in step with its state
(R128 to R130, R145, R164, R167). -/
def Obligations.StepKeepsLabelsInOrder : Prop :=
  ∀ s t : State, LabelsInOrder s → WinderSound s → step s = .next t → LabelsInOrder t ∧ WinderSound t

/-! ### Encoders, time and timers -/

/-- A count of an encoder moves its own counter and no other (R2, R3), and leaves alone the blocks that none
of the actions at that count reaches: at a count of U the emboss reader, the draw, grading, labels and
job control; at a count of D the tracker and loops L1 to L7; at either the settings, the job store and
the queue of commands. -/
def Obligations.EncoderCountMovesOneCounter : Prop :=
  ∀ (dir : Direction) (s : State),
    (∃ t u, exec (.encoderCount .print dir) s = .next t ∧ Counted dir s.epu.u u ∧
      t.epu = { s.epu with u := u } ∧ t.mrd.emboss = s.mrd.emboss ∧ t.mrd.embossGroup = s.mrd.embossGroup ∧
      t.mrd.held = s.mrd.held ∧ t.tou.draw = s.tou.draw ∧ t.gru = s.gru ∧ t.lbu = s.lbu ∧ t.job = s.job ∧
      t.act = s.act ∧ t.store = s.store ∧ t.free = s.free ∧ t.pending = s.pending) ∧
    (∃ t d, exec (.encoderCount .wind dir) s = .next t ∧ Counted dir s.epu.d d ∧
      t.epu = { s.epu with d := d } ∧ t.rtk = s.rtk ∧ (∀ i : Fin 7, t.rlu.loops[i.castSucc] = s.rlu.loops[i.castSucc]) ∧
      t.lbu = s.lbu ∧ t.act = s.act ∧ t.store = s.store ∧ t.free = s.free ∧ t.pending = s.pending)

/-- What a count of an encoder does to the open group of its reader, and what follows in the same event. The
counter moves (R2, R3); a backward count drops a held leading edge, and a counter fresh again takes the
scanner's level (R8); while it is fresh, each code cell that the counter has reached is sampled with that
level (R13, R16); a print group is complete, counted and delivered to the tracker when U has passed the later
of the last cell and the station windows (R11, R14), an emboss group when D has passed the last cell, and the
fiducials held go after it (R16, R17). A record that a count of U makes can be the start record of a winder
THREADING, and is passed over in that event when it carries SPLICE (R133). A count of D ends with the test of the
drained report, and so does every event that can bring it (KnifeAndTurretExpire, SpeedMeasurementTakesBoth): a
DRAINING job ends when the winder is IDLE and no slot is WINDING, CUT or LABEL_PENDING, and nothing changes
otherwise (R147, R177; jobDrained is the end of draining of R7, R106, R160 and R177, its notices in the order of log
entry 13). The order of what else falls due at the count is the model's choice (log entry 12). -/
def Obligations.EncoderCountSamplesCells : Prop :=
  (∀ cfg : ReaderSettings,
    let last : Int := 2 * cfg.codeOffset + 46 * cfg.pitch
    let ends := fun i : Fin 7 => 2 * (cfg.nominal[i] : Int) + 2 * cfg.capture[i] + cfg.station.hi
    cfg.lastCell = last ∧ last ≤ cfg.groupEnd ∧ (∀ i, i.val + 2 ≤ cfg.stations → ends i ≤ cfg.groupEnd) ∧
      (cfg.groupEnd = last ∨ ∃ i : Fin 7, i.val + 2 ≤ cfg.stations ∧ cfg.groupEnd = ends i)) ∧
  (∀ s : State,
    let drained := s.job.state = .draining ∧ s.wnc.state = .idle ∧
      ∀ (i : Fin 12) p r, s.wnc.slots[i] = .used p r → p = .labelled
    (drained → checkDrained s = jobDrained s) ∧ (¬ drained → checkDrained s = s)) ∧
  ∀ (dir : Direction) (c : Counter) (s : State),
    let moved := fun (r : Reader) (wasFresh : Bool) => match dir with
      | .backward => { r with
          lead := none
          counts := { r.counts with
            droppedEdges := if r.lead = none then r.counts.droppedEdges
              else min (r.counts.droppedEdges + 1) 65535 } }
      | .forward => if c.fresh = true ∧ wasFresh = false then { r with level := r.scannerDark } else r
    let counted := fun (r : Reader) (cells : List Bool) =>
      let words := [kindWord cells, designWord cells, counterWord cells]
      { r with counts := { r.counts with
          corrected := min (r.counts.corrected + words.countP fun w => w.status == .corrected) 65535
          uncorrectable := min (r.counts.uncorrectable + words.countP fun w => w.status == .uncorrectable) 65535 } }
    (Counted dir s.epu.u c →
      let r := moved s.mrd.print s.epu.u.fresh
      let w := { s with epu := { s.epu with u := c }, mrd := { s.mrd with print := r } }
      let rest := fun x : State =>
        (.next (pump (nameStart (spliceSweep (transferSweep (windowSweep x))))) : Host.Outcome State Fault Refusal)
      let out := exec (.encoderCount .print dir) s
      (s.mrd.group = none ∨ c.fresh = false → out = rest w) ∧
      ∀ g, s.mrd.group = some g → c.fresh = true →
        let key := centreSum g.key.lead g.key.trail
        let complete := 0 < halfDiff (half c.pos) (halfShift key s.act.reader.groupEnd)
        ∃ cells, Sampled s.act.reader key c.pos r.level g.cells cells ∧
          (¬ complete → out = rest { w with mrd := { w.mrd with group := some { g with cells } } }) ∧
          (complete → out = rest (takePrintGroup { g with cells }
            { w with mrd := { w.mrd with group := none, print := counted r cells } }))) ∧
    (Counted dir s.epu.d c →
      let r := moved s.mrd.emboss s.epu.d.fresh
      let w := { s with epu := { s.epu with d := c }, mrd := { s.mrd with emboss := r } }
      let rest := fun x : State =>
        (.next (pump (checkDrained (wncSettle (shadeSweep (stampSweep (watchSweep (unseenSweep x))))))) :
          Host.Outcome State Fault Refusal)
      let out := exec (.encoderCount .wind dir) s
      (s.mrd.embossGroup = none ∨ c.fresh = false → out = rest w) ∧
      ∀ g, s.mrd.embossGroup = some g → c.fresh = true →
        let key := centreSum g.key.lead g.key.trail
        let complete := 0 < halfDiff (half c.pos) (halfShift key s.act.reader.lastCell)
        ∃ cells, Sampled s.act.reader key c.pos r.level g.cells cells ∧
          (¬ complete → out = rest { w with mrd := { w.mrd with embossGroup := some { g with cells } } }) ∧
          (complete → out = rest (s.mrd.held.foldl (fun x m => takeFiducial (centreSum m.lead m.trail) x)
            (takeEmbossGroup { g with cells } { w with mrd := { w.mrd with
              embossGroup := none, held := [], emboss := counted r cells } }))))

/-- A speed measurement takes both speeds as the counts since the one before (R4). With the new D speed below the
minimum emboss speed an ENGAGING or ENGAGED nip is lifted with cause SPEED and its lift time (R105, R106), so that
no valve output is left on; otherwise an auto-engage that is pending is tried, and starts when the job is ARMED,
the nip LIFTED and no watched splice in its zone (R107, R109). An armed cut has its lead and fire position worked
out anew, and is due in the same event when D has passed it (R136); the job ends with it when that has drained it
(R147, R177): EncoderCountSamplesCells says what checkDrained does. Tracking, loops, outputs, shade, labels and
settings stay. -/
def Obligations.SpeedMeasurementTakesBoth : Prop :=
  (∀ s : State,
    let v := posDiff s.epu.d.pos s.epu.d.measuredAt
    let m := { s with epu := { s.epu with
      u := { s.epu.u with speed := posDiff s.epu.u.pos s.epu.u.measuredAt, measuredAt := s.epu.u.pos }
      d := { s.epu.d with speed := v, measuredAt := s.epu.d.pos }
      measureDue := false } }
    let slow := v < (s.act.emboss.minSpeed : Int)
    let on := s.emc.nip = .engaging ∨ s.emc.nip = .engaged
    let tries := s.emc.autoPending = true ∧ s.act.emboss.autoEngage = true ∧ s.job.state = .armed ∧
      s.emc.nip = .lifted ∧ ∀ x ∈ s.emc.watch, s.inZone x = false
    ∃ n t : State, exec .speedMeasurement s = .next (pump (checkDrained (wncSpeed n))) ∧
      (slow → on → n = raise (.nip s.emc.nip .lifting .speed s.epu.d.pos) { m with emc := { s.emc with
        nip := .lifting, lastLift := .speed, timer := s.emc.timer.start s.act.emboss.liftTime } }) ∧
      (slow → ¬ on → n = m) ∧
      (¬ slow → tries → n = raise (.nip .lifted .engaging .auto s.epu.d.pos) { m with emc := { s.emc with
        nip := .engaging, autoPending := false, timer := s.emc.timer.start s.act.emboss.engageTime } }) ∧
      (¬ slow → ¬ tries → n = m) ∧
      exec .speedMeasurement s = .next t ∧ t.epu = m.epu ∧ (slow → t.emc.nip.valve = false) ∧
      t.rtk = s.rtk ∧ t.rlu = s.rlu ∧ t.tou = s.tou ∧ t.shu = s.shu ∧ t.lbu = s.lbu ∧ t.act = s.act ∧
      t.store = s.store ∧ t.free = s.free ∧ t.pending = s.pending) ∧
  ∀ n : State,
    let lead := if n.epu.d.speed ≤ 0 then 0 else roundDiv (n.epu.d.speed * n.act.winder.knifeTime) 100
    (n.wnc.armed = none → wncSpeed n = wncSettle n) ∧
    ∀ a, n.wnc.armed = some a → wncSpeed n = wncSettle { n with wnc := { n.wnc with
      armed := some { a with firePos := posShift a.cutPos (-lead) } } }

/-- A unit of the time base: it advances modulo 2^32, every 100 units a measurement falls due, the seven timers
take their unit, and the accumulator of every output with steps pending rises by its step rate, after the
steps that fell due in the unit before and that no TRIM_STEP has emitted have been emitted (the model's
choice, log entry 1). A trigger pulse ends (at this unit by the model's choice, log entry 9). A timer started
from a reload runs for that many units and no longer: before then it reads what is left, at the end it is
idle at 0 with its expiry due; a stopped one never expires; a new reload leaves the current value (R4, R5,
R6, R84, R89). -/
def Obligations.TimeBaseUnitRunsTimers : Prop :=
  (∀ (t : Timer) (n k : Nat), 0 < n →
    (k < n → Timer.tick^[k] (t.start n) = { reload := n, current := n - k, running := true, due := false }) ∧
    (n ≤ k → Timer.tick^[k] (t.start n) = { reload := n, current := 0, running := false, due := true }) ∧
    Timer.tick^[k] t.stop = { reload := t.reload, current := 0, running := false, due := false } ∧
    (t.setReload n).current = t.current ∧ (t.setReload n).running = t.running) ∧
  ∀ s : State, ∃ trims : Vector Trim 8,
    (∀ i : Fin 8,
      let old := s.tou.trims[i]
      let n := min (old.acc / 10000) old.pending.natAbs
      (old.pending = 0 → trims[i] = old) ∧
      (old.pending ≠ 0 → trims[i] = { old with
        pending := old.pending - old.pending.sign * n
        acc := if old.pending.natAbs ≤ n then 0 else old.acc - 10000 * n + s.act.trims[i].rate
        forward := if 0 < old.pending then old.forward + BitVec.ofNat 32 n else old.forward
        reverse := if old.pending < 0 then old.reverse + BitVec.ofNat 32 n else old.reverse })) ∧
    exec .timeBaseUnit s = .next (pump { s with
      epu := if 100 ≤ s.epu.intervalUnits + 1 then
          { s.epu with timeBase := s.epu.timeBase + 1, intervalUnits := 0, measureDue := true }
        else { s.epu with timeBase := s.epu.timeBase + 1, intervalUnits := s.epu.intervalUnits + 1 }
      tou := { s.tou with trims }
      emc := { s.emc with timer := s.emc.timer.tick }
      shu := { s.shu with timer := s.shu.timer.tick, triggerOut := false }
      wnc := { s.wnc with knife := s.wnc.knife.tick, turret := s.wnc.turret.tick }
      lbu := { s.lbu with timer := s.lbu.timer.tick }
      link := { s.link with gapTimer := s.link.gapTimer.tick }
      job := { s.job with timer := s.job.timer.tick } })

/-! ### The readers -/

/-- What an edge of a scanner does while no group is open. An edge captured going dark is held as the leading
edge with its position, and one going light without a leading edge is ignored; one not captured changes the
scanner's level alone (R7, R8). A pair completed on the print reader (R10, R24) is a stray outside the key
window; inside it, allowed or refused by the tracking state and its window, it opens a group as its key mark
or is unclaimed. A pair completed on the emboss reader (R16, R17) opens a group by a width in the key window,
is delivered as a fiducial by one in the fiducial window, and is otherwise a stray. -/
def Obligations.EdgesOutsideAGroup : Prop :=
  (∀ s : State,
    (captures s s.epu.u → exec (.scannerEdge .print .darkGoing) s = .next (pump { s with mrd := { s.mrd with
      print := { s.mrd.print with scannerDark := true, level := true, lead := some s.epu.u.pos } } })) ∧
    (captures s s.epu.d → exec (.scannerEdge .emboss .darkGoing) s = .next (pump { s with mrd := { s.mrd with
      emboss := { s.mrd.emboss with scannerDark := true, level := true, lead := some s.epu.d.pos } } })) ∧
    (captures s s.epu.u → s.mrd.print.lead = none →
      exec (.scannerEdge .print .lightGoing) s = .next (pump { s with mrd := { s.mrd with
        print := { s.mrd.print with scannerDark := false, level := false } } })) ∧
    (captures s s.epu.d → s.mrd.emboss.lead = none →
      exec (.scannerEdge .emboss .lightGoing) s = .next (pump { s with mrd := { s.mrd with
        emboss := { s.mrd.emboss with scannerDark := false, level := false } } })) ∧
    (∀ e, ¬ captures s s.epu.u → exec (.scannerEdge .print e) s = .next (pump { s with mrd := { s.mrd with
      print := { s.mrd.print with scannerDark := e == .darkGoing } } })) ∧
    (∀ e, ¬ captures s s.epu.d → exec (.scannerEdge .emboss e) s = .next (pump { s with mrd := { s.mrd with
      emboss := { s.mrd.emboss with scannerDark := e == .darkGoing } } }))) ∧
  (∀ (s : State) (lead : Pos), captures s s.epu.u → s.mrd.print.lead = some lead → s.mrd.group = none →
    let width := posDiff s.epu.u.pos lead
    let inKey := (s.act.reader.key.lo : Int) ≤ width ∧ width ≤ s.act.reader.key.hi
    let r := { s.mrd.print with scannerDark := false, level := false, lead := none }
    let opens := some ({ key := ⟨lead, s.epu.u.pos⟩, marks := noMarks, cells := [] } : PrintGroup)
    let inWindow := fun w : KeyWindow =>
      ((halfDiff (centreSum lead s.epu.u.pos) w.expected).natAbs : Int) ≤ 2 * w.halfWidth
    let unclaimed := pump { s with mrd := { s.mrd with print := { r with
      counts := { r.counts with unclaimed := min (r.counts.unclaimed + 1) 65535 } } } }
    (¬ inKey → exec (.scannerEdge .print .lightGoing) s = .next (pump { s with mrd := { s.mrd with
      print := { r with counts := { r.counts with strays := min (r.counts.strays + 1) 65535 } } } })) ∧
    (inKey → s.rtk.state = .search → exec (.scannerEdge .print .lightGoing) s =
      .next (pump { s with mrd := { s.mrd with print := r, group := opens } })) ∧
    (inKey → s.rtk.state = .idle → exec (.scannerEdge .print .lightGoing) s = .next unclaimed) ∧
    (∀ w, inKey → s.rtk.state = .locked ∨ s.rtk.state = .coasting → s.rtk.window = some w →
      (w.claimed = false → inWindow w → exec (.scannerEdge .print .lightGoing) s =
        .next (pump { s with
          mrd := { s.mrd with print := r, group := opens }
          rtk := { s.rtk with window := some { w with claimed := true } } })) ∧
      (w.claimed = true ∨ ¬ inWindow w →
        exec (.scannerEdge .print .lightGoing) s = .next unclaimed))) ∧
  ∀ (s : State) (lead : Pos), captures s s.epu.d → s.mrd.emboss.lead = some lead → s.mrd.embossGroup = none →
    let width := posDiff s.epu.d.pos lead
    let inKey := (s.act.reader.key.lo : Int) ≤ width ∧ width ≤ s.act.reader.key.hi
    let inFiducial := (s.act.reader.fiducial.lo : Int) ≤ width ∧ width ≤ s.act.reader.fiducial.hi
    let r := { s.mrd.emboss with scannerDark := false, level := false, lead := none }
    let out := exec (.scannerEdge .emboss .lightGoing) s
    (inKey → out = .next (pump { s with mrd := { s.mrd with
      emboss := r, embossGroup := some ⟨⟨lead, s.epu.d.pos⟩, []⟩ } })) ∧
    (¬ inKey → inFiducial → out = .next (pump
      (takeFiducial (centreSum lead s.epu.d.pos) { s with mrd := { s.mrd with emboss := r } }))) ∧
    (¬ inKey → ¬ inFiducial → out = .next (pump { s with mrd := { s.mrd with
      emboss := { r with counts := { r.counts with strays := min (r.counts.strays + 1) 65535 } } } }))

/-- A pair completed while a group is open is placed by its centre (R12, R16, R17): the code area takes it, a
station without a mark takes one within the station window, an emboss group's fiducials are held up to 4,
and any other is unclaimed or a stray by its width. -/
def Obligations.PairInOpenGroupIsPlaced : Prop :=
  ∀ (s : State) (lead : Pos), s.act.valid = true →
    (∀ g, captures s s.epu.u → s.mrd.print.lead = some lead → s.mrd.group = some g →
      let width := posDiff s.epu.u.pos lead
      let c := halfDiff (centreSum lead s.epu.u.pos) (centreSum g.key.lead g.key.trail)
      let cfg := s.act.reader
      let r := { s.mrd.print with scannerDark := false, level := false, lead := none }
      let inCode := 2 * (cfg.codeOffset : Int) - cfg.pitch ≤ c ∧ c ≤ 2 * (cfg.codeOffset : Int) + 47 * cfg.pitch
      let inRange := fun i : Fin 7 => i.val + 2 ≤ cfg.stations ∧
        2 * (cfg.nominal[i] : Int) - 2 * cfg.capture[i] ≤ c ∧ c ≤ 2 * (cfg.nominal[i] : Int) + 2 * cfg.capture[i]
      let inStation := (cfg.station.lo : Int) ≤ width ∧ width ≤ cfg.station.hi
      let inKey := (cfg.key.lo : Int) ≤ width ∧ width ≤ cfg.key.hi
      let after := fun (r : Reader) (g : PrintGroup) => (.next (pump
        { s with mrd := { s.mrd with print := r, group := some g } }) : Host.Outcome State Fault Refusal)
      let unclaimed := { r with counts := { r.counts with unclaimed := min (r.counts.unclaimed + 1) 65535 } }
      let stray := { r with counts := { r.counts with strays := min (r.counts.strays + 1) 65535 } }
      let out := exec (.scannerEdge .print .lightGoing) s
      (inCode → out = after r g) ∧
      (∀ i, inRange i → inStation → g.marks[i] = none →
        out = after r { g with marks := g.marks.set i (some ⟨lead, s.epu.u.pos⟩) }) ∧
      (∀ i m, inRange i → inStation → g.marks[i] = some m → out = after unclaimed g) ∧
      (∀ i, inRange i → ¬ inStation → out = after stray g) ∧
      (¬ inCode → (∀ i, ¬ inRange i) → inKey → out = after unclaimed g) ∧
      (¬ inCode → (∀ i, ¬ inRange i) → ¬ inKey → out = after stray g)) ∧
    (∀ g, captures s s.epu.d → s.mrd.emboss.lead = some lead → s.mrd.embossGroup = some g →
      let width := posDiff s.epu.d.pos lead
      let c := halfDiff (centreSum lead s.epu.d.pos) (centreSum g.key.lead g.key.trail)
      let cfg := s.act.reader
      let r := { s.mrd.emboss with scannerDark := false, level := false, lead := none }
      let inCode := 2 * (cfg.codeOffset : Int) - cfg.pitch ≤ c ∧ c ≤ 2 * (cfg.codeOffset : Int) + 47 * cfg.pitch
      let inFiducial := (cfg.fiducial.lo : Int) ≤ width ∧ width ≤ cfg.fiducial.hi
      let inKey := (cfg.key.lo : Int) ≤ width ∧ width ≤ cfg.key.hi
      let after := fun (r : Reader) (held : List Mark) => (.next (pump
        { s with mrd := { s.mrd with emboss := r, held } }) : Host.Outcome State Fault Refusal)
      let unclaimed := { r with counts := { r.counts with unclaimed := min (r.counts.unclaimed + 1) 65535 } }
      let stray := { r with counts := { r.counts with strays := min (r.counts.strays + 1) 65535 } }
      let out := exec (.scannerEdge .emboss .lightGoing) s
      (inCode → out = after r s.mrd.held) ∧
      (¬ inCode → inFiducial → s.mrd.held.length < 4 → out = after r (s.mrd.held ++ [⟨lead, s.epu.d.pos⟩])) ∧
      (¬ inCode → inFiducial → 4 ≤ s.mrd.held.length → out = after unclaimed s.mrd.held) ∧
      (¬ inCode → inKey → out = after unclaimed s.mrd.held) ∧
      (¬ inCode → ¬ inFiducial → ¬ inKey → out = after stray s.mrd.held))

/-- What the three words of a print group decode to, and the table that decides it. A printed word reads back
CLEAN as its value; with any one cell misread, CORRECTED as the same value; with any two misread,
UNCORRECTABLE (R15). The lowest-numbered active entry whose cared-for fields all read its values decides a
group, which carries what its words decode to (R21). A CODE SET whose entry is at most 7, whose values are at
most 15 and whose action is one of the three replaces that entry whole; any other is refused VALUE (R20);
that a bit beyond a field's own is refused VALUE too is the model's choice (log entry 7). -/
def Obligations.CodeWordsAndTableDecide : Prop :=
  (∀ v : Nibble,
    decodeWord (printedWord v) = ⟨.clean, some v⟩ ∧
    (∀ k < 8, decodeWord (misread k (printedWord v)) = ⟨.corrected, some v⟩) ∧
    ∀ j < 8, ∀ k < 8, j ≠ k → decodeWord (misread j (misread k (printedWord v))) = ⟨.uncorrectable, none⟩) ∧
  (∀ (j : JobSettings) (g : PrintGroup),
    let agrees := fun (f : CodeField) (w : CodeWord) => f.care = true → w.value = some f.value
    let fits := fun n : Fin 8 => j.code[n].active = true ∧ agrees j.code[n].kind (kindWord g.cells) ∧
      agrees j.code[n].design (designWord g.cells) ∧ agrees j.code[n].counter (counterWord g.cells)
    let k := keyGroup j g
    (∀ n, fits n → (∀ m < n, ¬ fits m) →
      k.counterCare = j.code[n].counter.care ∧
      (j.code[n].action = .plainRepeat → k.outcome = .plainRepeat) ∧
      (j.code[n].action = .jobMark → k.outcome = .jobMark) ∧
      (j.code[n].action = .ignore → k.outcome = .ignore)) ∧
    ((∀ n, ¬ fits n) → k.outcome = .unmatched ∧ k.counterCare = false) ∧
    k.counter = (counterWord g.cells).value ∧ k.design = (designWord g.cells).value ∧
    k.centre = centreSum g.key.lead g.key.trail ∧ k.key = g.key ∧ k.marks = g.marks ∧
    let words := [kindWord g.cells, designWord g.cells, counterWord g.cells]
    (k.status = .uncorrectable ↔ ∃ w ∈ words, w.status = .uncorrectable) ∧
    (k.status = .corrected ↔ (∃ w ∈ words, w.status = .corrected) ∧ ∀ w ∈ words, w.status ≠ .uncorrectable) ∧
    (k.status = .clean ↔ ∀ w ∈ words, w.status = .clean)) ∧
  ∀ (tag entry active kind design counter : Byte) (s : State), Takeable s →
    let readable := active.toNat ≤ 1 ∧ kind.toNat < 32 ∧ design.toNat < 32 ∧ counter.toNat < 96
    let field := fun b : Byte => (⟨b.truncate 4, b.getLsbD 4⟩ : CodeField)
    (∀ h : entry.toNat < 8, readable → ∀ a,
      (counter.toNat / 32, a) ∈ [(0, CodeAction.plainRepeat), (1, .jobMark), (2, .ignore)] →
      exec (.codeSet tag entry active kind design counter) s =
        .next (pump (accept 13 tag [] { s with act := { s.act with
          code := s.act.code.set entry.toNat
            ⟨active == 1, field kind, field design, field counter, a⟩ h } }))) ∧
    (¬ (entry.toNat < 8 ∧ readable) →
      exec (.codeSet tag entry active kind design counter) s = .next (pump (refuse 13 tag .value s)))

/-! ### Tracking -/

/-- What the tracker makes of a print group delivered to it. IDLE takes none. In SEARCH an IGNORE group is counted, a
JOB_MARK or UNMATCHED one discards the run, and a REPEAT one starts a run, joins it, or replaces it; the third of a
run locks the tracker, with a record for each of the three at indices that follow (R31 to R33). In LOCKED and
COASTING an IGNORE group and a double read are counted and release the claim, on a window that has run out with its
expiry (R25, R28); any other takes the index that the counters or, without them, the distance give it: a MISSED
record for each index between, its own record, L_U for the record before, the length history, and the next window
(R25 to R27, R29). The loops take each record made (R63), which has GAP_BEFORE when the gap-pending flag is set or
the store's newest record is not the one before it (R27, R43). A repeat that the store has no room for goes
unrecorded, the first of an episode with its STORE_FULL notice (R34); that an index beyond 4,294,967,295 shows as
that number is deduced (log entry 19). A window that runs out unclaimed expires (R30).

Each repeat of an event takes its index in turn (R29), be it a MISSED one or one of a lock, and finds the store as
the one before left it: a record is made with its flags while there is room, R29's L_U, L_ref history, last key, next
index and window follow, and the record goes to the loops; without room the repeat is unrecorded first, and that its
STORE_FULL notice comes before the LATE_WRITE of an L_U write to a CLOSED record, and R29 before the loops, is the
model's choice (log entry 13). That a MISSED record is counted when it is made is deduced (log entry 18). What the
repeat does to the splices, and the SPLICE offset of its record, SplicesAreQueuedAndStamped says. R33 and R39 give
the TRACK notices of a lock and of a key in COASTING but not their place among the notices of the records: that a
lock raises its TRACK notice before its three records are made, and a key in COASTING its own after its record, is
deduced (log entry 18). -/
def Obligations.PrintGroupsAreTracked : Prop :=
  (∀ s : State,
    (s.rtk.history = [] → s.lRef = s.act.track.nominalRepeat) ∧
    (s.rtk.history ≠ [] → s.lRef = roundDiv s.rtk.history.sum s.rtk.history.length)) ∧
  (∀ (n : NewRepeat) (s : State), ∃ (splices : List Splice) (unstamped : Nat) (offset : Option Int),
    let room := s.rst.records.length < 512 ∧ n.index ≤ 4294967295
    let tested := { s with rtk := { s.rtk with
      splices, counts := { s.rtk.counts with unstamped } } }
    let gap := s.rtk.gapPending ||
      s.rst.records.getLast?.any fun (x : Record) => decide (x.index + 1 ≠ n.index)
    let r : Record := {
      index := n.index, predicted := n.predicted, missed := n.missed, gapBefore := gap, unmatched := n.unmatched
      jobMark := n.jobMark, splice := offset, keyU := n.centre, counter := n.counter, design := n.design
      status := n.status, lU := none, keyT := none, stage := .created, reg := none, emb := none, shd := none
      wnd := none, remark := 0 }
    let made := { tested with
      rst := { s.rst with
        records := s.rst.records ++ [r], peak := max s.rst.peak (s.rst.records.length + 1) }
      rtk := { tested.rtk with
        gapPending := false, storeFull := false
        counts := { tested.rtk.counts with
          missed := if n.missed then min (s.rtk.counts.missed + 1) 65535 else s.rtk.counts.missed } } }
    let missing := { tested with rtk := { tested.rtk with
      gapPending := true, storeFull := true
      counts := { tested.rtk.counts with unrecorded := min (s.rtk.counts.unrecorded + 1) 65535 } } }
    let lost := if s.rtk.storeFull then missing else raise (.storeFull (min n.index 4294967295)) missing
    let measured : State → State := fun x => match s.rtk.last with
      | none => x
      | some l => if l.index + 1 = n.index then
          let length := roundDiv (halfDiff n.centre l.centre) 2
          let written : State := match x.rst.records.find? fun y => y.index == l.index with
            | none => x
            | some y => if y.stage = .closed then
                raise (.lateWrite .header l.index y.rollNumber) { x with rst := { x.rst with
                  late := { x.rst.late with header := min (x.rst.late.header + 1) 65535 } } }
              else { x with rst := { x.rst with
                records := x.rst.records.map fun z => if z.index = l.index then { z with lU := some length } else z } }
          { written with rtk := { x.rtk with history :=
              if l.seen = true ∧ n.predicted = false ∧ n.missed = false then
                (if 4 ≤ x.rtk.history.length then x.rtk.history.drop 1 else x.rtk.history) ++ [length]
              else x.rtk.history } }
        else x
    let indexed : State → State := fun x =>
      let y := measured x
      { y with rtk := { y.rtk with
          last := some ⟨n.index, n.centre, n.counter, !n.predicted && !n.missed⟩
          nextIndex := min (n.index + 1) 4294967295
          window := if s.rtk.state = .locked ∨ s.rtk.state = .coasting then
              some ⟨halfShift n.centre (2 * y.lRef), roundDiv (y.lRef * s.act.track.tolerance) 100, false⟩
            else s.rtk.window } }
    (room → assign n s = rluTake r n.marks (indexed made)) ∧ (¬ room → assign n s = indexed lost)) ∧
  ∀ (g : PrintGroup) (s : State),
    let k := keyGroup s.act g
    let t := takePrintGroup g s
    let search := s.rtk.state = .search
    let tracks := s.rtk.state = .locked ∨ s.rtk.state = .coasting
    let records := s.rst.records.length
    let ignored := { s.rtk with
      counts := { s.rtk.counts with ignored := min (s.rtk.counts.ignored + 1) 65535 } }
    let doubled := { s.rtk with
      counts := { s.rtk.counts with doubleReads := min (s.rtk.counts.doubleReads + 1) 65535 } }
    let discards := fun (n : Nat) (run : List KeyGroup) => { s with rtk := { s.rtk with
      run, counts := { s.rtk.counts with searchDiscards := min (s.rtk.counts.searchDiscards + n) 65535 } } }
    let runOut := fun w : KeyWindow => 0 < halfDiff (half s.epu.u.pos) (halfShift w.expected (2 * w.halfWidth))
    let advance := fun (l : LastKey) (c : HalfPos) => max 1 (roundDiv (halfDiff c l.centre) (2 * s.lRef)).toNat
    let own := fun (i : Nat) (x : KeyGroup) => ({
      index := i, centre := x.centre, counter := x.counter, design := x.design, status := x.status
      predicted := false, missed := false, jobMark := x.outcome == .jobMark, unmatched := x.outcome == .unmatched
      marks := if x.outcome = .unmatched then none else some (x.key, x.marks) } : NewRepeat)
    let taken := fun (ns : List NewRepeat) (x : State) => ns.foldl (fun y n => assign n y) x
    (s.rtk.state = .idle → t = s) ∧
    (search → k.outcome = .ignore → t = { s with rtk := ignored }) ∧
    (search → k.outcome = .jobMark ∨ k.outcome = .unmatched → t = discards (s.rtk.run.length + 1) []) ∧
    (search → k.outcome = .plainRepeat → s.rtk.run = [] → t = { s with rtk := { s.rtk with run := [k] } }) ∧
    (∀ xs x, search → k.outcome = .plainRepeat → s.rtk.run = xs ++ [x] →
      let nominal : Int := s.act.track.nominalRepeat
      let continues :=
        ((halfDiff k.centre x.centre - 2 * nominal).natAbs : Int) ≤
          2 * roundDiv (nominal * s.act.track.tolerance) 100 ∧
        ∀ a b, x.counter = some a → k.counter = some b →
          x.counterCare = true ∨ k.counterCare = true ∨ b = a + 1
      (¬ continues → t = discards (xs.length + 1) [k]) ∧
      (continues → xs = [] → t = { s with rtk := { s.rtk with run := [x, k] } }) ∧
      ∀ y, continues → xs = [y] →
        let i := match s.rtk.last with
          | none => 0
          | some l => l.index + advance l y.centre
        (let locked := taken [own i y, own (i + 1) x, own (i + 2) k]
            (raise (.track .search .locked s.rtk.nextIndex s.epu.u.pos) { s with rtk := { s.rtk with state := .locked } })
         t = { locked with rtk := { locked.rtk with run := [], predictedRun := 0 } }) ∧
        (StoreOrdered s → records + 3 ≤ 512 → i + 2 ≤ 4294967295 →
          t.rtk.state = .locked ∧ t.rtk.run = [] ∧ t.rtk.predictedRun = 0 ∧
          t.rtk.last = some ⟨i + 2, k.centre, k.counter, true⟩ ∧
          t.rtk.window = some ⟨halfShift k.centre (2 * t.lRef), roundDiv (t.lRef * s.act.track.tolerance) 100, false⟩ ∧
          t.rst.records.length = records + 3 ∧
          (∃ r, t.rst.records[records]? = some r ∧ MadeSeen s.act r i y (GapBefore s i)) ∧
          (∃ r, t.rst.records[records + 1]? = some r ∧ MadeSeen s.act r (i + 1) x False) ∧
          (∃ r, t.rst.records[records + 2]? = some r ∧ MadeSeen s.act r (i + 2) k False) ∧
          LoopsTook (t.rst.records.drop records) s t ∧ t.rtk.gapPending = false ∧ t.rtk.storeFull = false) ∧
        (512 ≤ records → Unrecorded 3 s t ∧ t.rtk.state = .locked ∧ t.rlu = s.rlu ∧
          t.rtk.last = some ⟨i + 2, k.centre, k.counter, true⟩)) ∧
    (∀ w, tracks → s.rtk.window = some w →
      let free := { w with claimed := false }
      (k.outcome = .ignore →
        (¬ runOut w → t = { s with rtk := { ignored with window := some free } }) ∧
        (runOut w → t = expireWindow free { s with rtk := { ignored with window := some free } })) ∧
      ∀ l a, k.outcome ≠ .ignore → s.rtk.last = some l → k.counter = some a → l.counter = some a →
        k.counterCare = false →
        (¬ runOut w → t = { s with rtk := { doubled with window := some free } }) ∧
        (runOut w → t = expireWindow free { s with rtk := { doubled with window := some free } })) ∧
    (∀ l a, tracks → k.outcome ≠ .ignore → s.rtk.last = some l →
      (∃ x y, k.counter = some x ∧ l.counter = some y ∧ k.counterCare = false ∧ x ≠ y ∧ a = (x - y).toNat) ∨
        ((k.counter = none ∨ l.counter = none ∨ k.counterCare = true) ∧ a = advance l k.centre) →
      (let distance := halfDiff k.centre l.centre
       let missed := (List.range (a - 1)).map fun j => ({
         index := l.index + (j + 1), centre := halfShift l.centre (roundDiv ((j + 1 : Nat) * distance) a)
         counter := none, design := none, status := .none, predicted := false, missed := true, jobMark := false
         unmatched := false, marks := none } : NewRepeat)
       let u := taken (missed ++ [own (l.index + a) k]) s
       let u := { u with rtk := { u.rtk with predictedRun := 0 } }
       t = if s.rtk.state = .locked then u
         else raise (.track .coasting .locked (min (l.index + a + 1) 4294967295) s.epu.u.pos)
           { u with rtk := { u.rtk with state := .locked } }) ∧
      (512 ≤ records ∨ 4294967295 ≤ l.index →
        Unrecorded a s t ∧ t.rlu = s.rlu ∧ t.rtk.state = .locked ∧ t.rtk.predictedRun = 0 ∧
        t.rtk.last = some ⟨l.index + a, k.centre, k.counter, true⟩ ∧
        (s.rtk.state = .locked → StoreOrdered s →
          (∀ r ∈ s.rst.records, r.index = l.index → r.stage ≠ .closed) → t.link = if s.rtk.storeFull then s.link
            else (raise (.storeFull (min (l.index + 1) 4294967295)) s).link)) ∧
      (StoreOrdered s → records + a ≤ 512 → l.index + a ≤ 4294967295 →
        let distance := halfDiff k.centre l.centre
        let between := fun j : Nat => halfShift l.centre (roundDiv ((j + 1 : Nat) * distance) a)
        let length := roundDiv (halfDiff (if a = 1 then k.centre else between 0) l.centre) 2
        t.rtk.state = .locked ∧ t.rtk.predictedRun = 0 ∧
        t.rtk.last = some ⟨l.index + a, k.centre, k.counter, true⟩ ∧
        t.rtk.history = (if l.seen = true ∧ a = 1 then
          (if 4 ≤ s.rtk.history.length then s.rtk.history.drop 1 else s.rtk.history) ++ [length]
          else s.rtk.history) ∧
        t.rtk.window = some ⟨halfShift k.centre (2 * t.lRef), roundDiv (t.lRef * s.act.track.tolerance) 100, false⟩ ∧
        t.rst.records.length = records + a ∧
        (∀ j, j + 1 < a → ∃ r, t.rst.records[records + j]? = some r ∧
          MadeMissed r (l.index + (j + 1)) (between j) (j = 0 ∧ GapBefore s (l.index + 1))) ∧
        (∃ r, t.rst.records[records + (a - 1)]? = some r ∧
          MadeSeen s.act r (l.index + a) k (a = 1 ∧ GapBefore s (l.index + 1))) ∧
        LoopsTook (t.rst.records.drop records) s t ∧ t.rtk.gapPending = false ∧ t.rtk.storeFull = false ∧
        ∀ r, s.rst.records.find? (fun x => x.index == l.index) = some r → r.stage ≠ .closed →
          t.rst.records.find? (fun x => x.index == l.index) = some { r with lU := some length })) ∧
    (∀ w, s.rtk.window = some w →
      (tracks → w.claimed = false → runOut w → windowSweep s = expireWindow w s) ∧
      (w.claimed = true ∨ ¬ runOut w → windowSweep s = s)) ∧
    (s.rtk.window = none → windowSweep s = s)

/-- A splice pulse makes a WAITING entry at U plus the splicer distance, after every entry at or before it and
before every later one; with 4 entries it is lost, counted and reported, and the nip is lifted (R35). A repeat that
takes an index covers the WAITING entries from its centre sum up to a reference length on: they are stamped with
it, and its record is flagged SPLICE with the offset of the first; those before it, and those covered by a repeat
that goes unrecorded, leave WAITING without a stamp and are counted; the others wait on (R36, R38). -/
def Obligations.SplicesAreQueuedAndStamped : Prop :=
  (∀ (n : NewRepeat) (s : State),
    let t := assign n s
    let recorded := s.rst.records.length < 512 ∧ n.index ≤ 4294967295
    let offset := fun x : Splice => halfDiff (half x.pos) n.centre
    let covered := fun x : Splice => x.phase = .waiting ∧ 0 ≤ offset x ∧ offset x < 2 * s.lRef
    let before := fun x : Splice => x.phase = .waiting ∧ offset x < 0
    List.Forall₂ (fun x y : Splice =>
        (covered x → y = { x with phase := .watch, stamp := if recorded then some n.index else none }) ∧
        (before x → y = { x with phase := .watch }) ∧ (¬ covered x → ¬ before x → y = x))
      s.rtk.splices t.rtk.splices ∧
    t.rtk.counts.unstamped = min (s.rtk.counts.unstamped + s.rtk.splices.countP fun x =>
      x.phase == .waiting && (if offset x < 0 then x.stamp.isNone
        else decide (offset x < 2 * s.lRef) && !decide recorded)) 65535 ∧
    (recorded → ∃ r, t.rst.records.getLast? = some r ∧ r.index = n.index ∧
      ((∀ x ∈ s.rtk.splices, ¬ covered x) → r.splice = none) ∧
      ∀ xs x ys, s.rtk.splices = xs ++ x :: ys → (∀ y ∈ xs, ¬ covered y) → covered x →
        r.splice = some (offset x))) ∧
  ∀ s : State,
    let p := posShift s.epu.u.pos s.act.track.splicerDistance
    (∀ xs ys, s.rtk.splices = xs ++ ys → s.rtk.splices.length < 4 →
      (∀ x ∈ xs, 0 ≤ posDiff p x.pos) → (∀ y ∈ ys.head?, posDiff p y.pos < 0) →
      exec .splicePulse s =
        .next (pump { s with rtk := { s.rtk with splices := xs ++ ⟨p, .waiting, none⟩ :: ys } })) ∧
    (4 ≤ s.rtk.splices.length →
      exec .splicePulse s = .next (pump (liftNip .spliceLost (raise (.spliceLost p) { s with
        rtk := { s.rtk with counts := { s.rtk.counts with
          lostSplices := min (s.rtk.counts.lostSplices + 1) 65535 } } }))))

/-- A window that runs out makes the PREDICTED record of the next index at its expected centre sum, with GAP_BEFORE as
R27 and R43 have it, or goes unrecorded with the store full (R34), and the loops take a record made (R63). The
PREDICTED repeat takes its index as any repeat does, so that PrintGroupsAreTracked and SplicesAreQueuedAndStamped say
what it does to the splices (R36), to L_U of the record before it (R29) and to the notices STORE_FULL, LATE_WRITE and
LOOP. The tracker is COASTING, with its TRACK notice, and its window moved on (R29, R30, R39). Below the coast limit
that is all. At the limit it has gone through LOST to SEARCH: the loops in FILL, TRACK or SETTLE enter COAST, from L1
on, the winder takes the report, and the run, the window and the predictions in a row are gone (R30, R31, R70). That
TRACK of LOST comes before the LOOP notices with cause LOST, the loops in the order L1 to L7, and TRACK of SEARCH
last, is the model's choice (log entry 13). That COASTING comes before LOST at a coast limit of 1 too is deduced (log
entry 18). -/
def Obligations.WindowExpiryPredictsRecord : Prop :=
  (∀ s : State,
    (s.rtk.history = [] → s.lRef = s.act.track.nominalRepeat) ∧
    (s.rtk.history ≠ [] → s.lRef = roundDiv s.rtk.history.sum s.rtk.history.length)) ∧
  ∀ (s : State) (w : KeyWindow) (l : LastKey), s.rtk.last = some l → s.rtk.state.tracks = true →
    let t := expireWindow w s
    let records := s.rst.records.length
    let room := records < 512 ∧ l.index + 1 ≤ 4294967295
    let limit := s.act.track.coastLimit ≤ s.rtk.predictedRun + 1
    let n : NewRepeat := {
      index := l.index + 1, centre := w.expected, counter := none, design := none, status := .none
      predicted := true, missed := false, jobMark := false, unmatched := false, marks := none }
    let y := assign n s
    let a := { y with rtk := { y.rtk with
      predictedRun := s.rtk.predictedRun + 1
      counts := { y.rtk.counts with predicted := min (s.rtk.counts.predicted + 1) 65535 } } }
    (a.rtk.state = s.rtk.state ∧ a.rtk.predictedRun = s.rtk.predictedRun + 1 ∧
      a.rtk.window = some ⟨halfShift w.expected (2 * s.lRef), s.act.track.halfWidth s.lRef, false⟩ ∧
      a.rtk.last = some ⟨l.index + 1, w.expected, none, false⟩ ∧
      a.rtk.nextIndex = min (l.index + 2) 4294967295 ∧ a.rtk.history = s.rtk.history ∧ a.rtk.run = s.rtk.run ∧
      a.rtk.counts.predicted = min (s.rtk.counts.predicted + 1) 65535) ∧
    (room → a.rst.records.length = records + 1 ∧
      (∃ r, a.rst.newest = some r ∧ r.index = l.index + 1 ∧ r.predicted = true ∧ r.missed = false ∧
        r.keyU = w.expected ∧ r.counter = none ∧ r.design = none ∧ r.status = .none ∧ r.stage = .created ∧
        r.reg = none ∧ (r.gapBefore = true ↔ GapBefore s (l.index + 1))) ∧
      LoopsTook (a.rst.records.drop records) s a ∧
      a.rtk.gapPending = false ∧ a.rtk.storeFull = false ∧ a.rtk.counts.unrecorded = s.rtk.counts.unrecorded) ∧
    (¬ room → Unrecorded 1 s a ∧ a.rlu = s.rlu ∧ a.tou = s.tou) ∧
    (a.epu = s.epu ∧ a.mrd = s.mrd ∧ a.emc = s.emc ∧ a.shu = s.shu ∧ a.wnc = s.wnc ∧ a.gru = s.gru ∧
      a.lbu = s.lbu ∧ a.tou.draw = s.tou.draw ∧ a.act = s.act ∧ a.job = s.job) ∧
    let u := if s.rtk.state = .coasting then a else
      raise (.track s.rtk.state .coasting a.rtk.nextIndex a.epu.u.pos)
        { a with rtk := { a.rtk with state := .coasting } }
    (¬ limit → t = u) ∧
    (limit →
      let loses := fun x : Loop => x.state = .fill ∨ x.state = .track ∨ x.state = .settle
      let coasts := fun x : Loop => { x with
        state := .coast, settle := 0, counts := { x.counts with coasts := min (x.counts.coasts + 1) 65535 } }
      let drops := fun (x : State) (i : Fin 8) => if loses u.rlu.loops[i] then
          raise (.loop i u.rlu.loops[i].state .coast .lost u.rtk.nextIndex)
            { x with rlu := { loops := x.rlu.loops.set i (coasts u.rlu.loops[i]) } }
        else x
      let lost := [(0 : Fin 8), 1, 2, 3, 4, 5, 6, 7].foldl drops
        (raise (.track .coasting .lost u.rtk.nextIndex u.epu.u.pos) { u with rtk := { u.rtk with state := .lost } })
      let told := wncLost lost
      (∀ i : Fin 8, lost.rlu.loops[i] = if loses u.rlu.loops[i] then coasts u.rlu.loops[i] else u.rlu.loops[i]) ∧
      told.rlu = lost.rlu ∧ told.rtk = lost.rtk ∧ told.tou = u.tou ∧ told.act = u.act ∧
      t = raise (.track .lost .search u.rtk.nextIndex u.epu.u.pos) { told with rtk := { u.rtk with
        state := .search, run := [], window := none, predictedRun := 0, gapPending := true } })

/-- At a count of U the CREATED records whose transfer point U has passed become TRANSFERRED with the present D as
key_T, one after another from the oldest on, and no other record changes (R37); a record transferred makes its shade
trigger when its index is a multiple of the divisor, or is an overflow at 64 (R118). The splices whose transfer point
U has passed leave the tracker for the watch list one after another, in the order of the queue, with their stamps or
counted as unstamped (R38). A splice that finds room enters the list by its position, the present D, and lifts the
nip with cause SPLICE at once when D has already passed its lift point; one more than 4 is lost and counted, raises
SPLICE_LOST with D and its stamp, and lifts the nip with cause SPLICE_LOST (R108; EngageAndLiftAreDecided says what a
lift does, its NIP notice among it). That of two splices at one position the later one follows the earlier in the
list is the model's choice (log entry 40). -/
def Obligations.TransferPointHandsOver : Prop :=
  ∀ s : State,
    let beyond := fun r : Record =>
      0 < halfDiff (half s.epu.u.pos) (halfShift r.keyU (2 * s.act.track.transferDistance))
    (StoreOrdered s →
      List.Forall₂ (fun r x : Record => x = r ∨ (r.stage = .created ∧ beyond r ∧
          x = { r with stage := .transferred, keyT := some s.epu.d.pos }))
        s.rst.records (transferSweep s).rst.records ∧
      ∀ x, (transferSweep s).rst.records.find? (fun r => r.stage == .created) = some x → ¬ beyond x) ∧
    (s.rst.records.find? (fun x => x.stage == .created) = none → transferSweep s = s) ∧
    (∀ r, s.rst.records.find? (fun x => x.stage == .created) = some r →
      (¬ beyond r → transferSweep s = s) ∧
      (beyond r → StoreOrdered s → transferSweep s = transferSweep (transfer r s))) ∧
    (∀ r, s.rst.records.find? (fun x => x.index == r.index) = some r → r.stage = .created →
      let rst := { s.rst with
        records := s.rst.records.map fun x =>
          if x.index = r.index then { x.request .transferred with keyT := some s.epu.d.pos } else x }
      let trigger : Trigger :=
        ⟨r.index, posShift s.epu.d.pos (s.act.shade.headDistance + s.act.shade.patchOffset)⟩
      (r.index % s.act.shade.divisor ≠ 0 → transfer r s = { s with rst }) ∧
      (r.index % s.act.shade.divisor = 0 → s.shu.queue.length < 64 →
        transfer r s = { s with rst, shu := { s.shu with queue := s.shu.queue ++ [trigger] } }) ∧
      (r.index % s.act.shade.divisor = 0 → 64 ≤ s.shu.queue.length →
        transfer r s = { s with rst, shu := { s.shu with
          counts := { s.shu.counts with overflows := min (s.shu.counts.overflows + 1) 65535 } } })) ∧
    let gone := fun x : Splice => decide (0 < posDiff s.epu.u.pos (posShift x.pos s.act.track.transferDistance))
    let t := spliceSweep s
    t.rtk.splices = s.rtk.splices.filter (fun x => !gone x) ∧
    (s.emc.watch.length ≤ 4 →
      t.emc.watch.length = min 4 (s.emc.watch.length + (s.rtk.splices.filter gone).length)) ∧
    t = (s.rtk.splices.filter gone).foldl (fun y x => handOver x y) s ∧
    ∀ x : Splice,
      let left : State := { s with rtk := { s.rtk with
        splices := s.rtk.splices.erase x
        counts := if x.phase = SplicePhase.waiting then
            { s.rtk.counts with unstamped := min (s.rtk.counts.unstamped + 1) 65535 }
          else s.rtk.counts } }
      let taken : Bool := decide (0 < posDiff s.epu.d.pos
        (posShift s.epu.d.pos ((s.act.emboss.nipDistance : Int) - s.act.emboss.liftLead)))
      (∀ xs ys : List Watched, s.emc.watch = xs ++ ys → s.emc.watch.length < 4 →
        (∀ v ∈ xs, 0 ≤ posDiff s.epu.d.pos v.pos) → (∀ v ∈ ys.head?, posDiff s.epu.d.pos v.pos < 0) →
        let entered : State := { left with emc := { s.emc with
          watch := xs ++ ⟨s.epu.d.pos, x.stamp, taken⟩ :: ys } }
        handOver x s = if taken then liftNip .splice entered else entered) ∧
      (4 ≤ s.emc.watch.length → handOver x s = liftNip .spliceLost (raise (.spliceLostWatch s.epu.d.pos x.stamp)
        { left with emc := { s.emc with counts := { s.emc.counts with
          lostWatch := min (s.emc.counts.lostWatch + 1) 65535 } } }))

/-! ### The store -/

/-- The Repeat Store's writes and freeings. Two writes to different groups of one record leave the same store
whichever is taken first; a write to a CLOSED record changes no record and is counted and reported; a write
to no record is an orphan (R44, R46, R48). Freeing removes exactly the records asked for, keeps the others in their
order, and changes of them GAP_BEFORE alone: a record that stood immediately after one removed gets it, unless it
is now the oldest (R40, R49 to R51; that it is so after each run removed, and not after the last alone, is log
entry 28's reading). -/
def Obligations.StoreWritesAndFreeing : Prop :=
  (∀ (g h : Group44) (q r : Option Stage) (i : Nat) (s : State), q ≠ some .closed → r ≠ some .closed →
    (g.part ≠ h.part →
      (groupWrite g q i (groupWrite h r i s)).rst = (groupWrite h r i (groupWrite g q i s)).rst) ∧
    (s.rst.records.find? (fun x => x.index == i) = none → groupWrite g q i s =
      { s with rst := { s.rst with orphans := min (s.rst.orphans + 1) 65535 } }) ∧
    (∀ x, s.rst.records.find? (fun x => x.index == i) = some x → x.stage = .closed →
      (groupWrite g q i s).rst.records = s.rst.records ∧
      (groupWrite g q i s) = raise (.lateWrite g.part i x.rollNumber)
        { s with rst := { s.rst with late := s.rst.late.raise g.part } })) ∧
  (∀ (p : Record → Bool) (records : List Record),
    (freeWhere p records).length = records.countP (fun r => !p r) ∧
    ∀ xs x ys, records = xs ++ x :: ys → p x = false →
      let kept := xs.countP fun r => !p r
      (freeWhere p records)[kept]? = some { x with
        gapBefore := x.gapBefore || (decide (kept ≠ 0) && xs.getLast?.any p) }) ∧
  ∀ (p : Record → Bool) (before after : List Record) (gone : List Record),
    gone ≠ [] → (∀ r ∈ gone, p r = true) → (∀ r ∈ before ++ after, p r = false) →
    (before = [] → freeWhere p (gone ++ after) = after) ∧
    (before ≠ [] → after = [] → freeWhere p (before ++ gone) = before) ∧
    (before ≠ [] → ∀ r rs, after = r :: rs →
      freeWhere p (before ++ gone ++ after) = before ++ { r with gapBefore := true } :: rs) ∧
    freeWhere p after = after

/-- REMARK (R53): VALUE above 15, NOT_FOUND for no record, accepted for a record that is not CLOSED or whose
roll is in CUT within the amend window, PROTECTED otherwise; an accepted one sets the remark alone. -/
def Obligations.RemarkIsDecided : Prop :=
  ∀ (tag : Byte) (index : BitVec 32) (value : Byte) (s : State),
    Takeable s →
    let found := s.rst.records.find? fun r => r.index == index.toNat
    let amends := fun r : Record => ∃ slot number position cutStart roll first last,
      r.wnd = some ⟨.roll slot number position, cutStart⟩ ∧ s.wnc.slots[slot] = .used .cut roll ∧
      roll.number = number ∧ s.rst.amend = some (first, last) ∧ first ≤ number ∧ number ≤ last
    let out := exec (.remark tag index value) s
    (15 < value.toNat → out = .next (pump (refuse 19 tag .value s))) ∧
    (value.toNat ≤ 15 → found = none → out = .next (pump (refuse 19 tag .notFound s))) ∧
    (∀ r, value.toNat ≤ 15 → found = some r → r.stage ≠ .closed ∨ amends r →
      out = .next (pump (accept 19 tag [] { s with rst := { s.rst with
        records := s.rst.records.map fun x =>
          if x.index = index.toNat then { x with remark := value.toNat } else x } }))) ∧
    (∀ r, value.toNat ≤ 15 → found = some r → r.stage = .closed → ¬ amends r →
      out = .next (pump (refuse 19 tag .protected_ s)))

/-- AMEND WINDOW replaces the window in every job state, empty when first > last; a later REMARK is checked
against the new one; it is empty after a cold reset and after JOB CLEAR, kept by ARM, JOB END and JOB
ABORT (R54). That STATUS reads it as a byte that says whether it is empty and its two ends is the model's
layout of page 3 (log entry 20). -/
def Obligations.AmendWindowRule : Prop :=
  (∀ (tag : Byte) (first last : BitVec 32) (s : State),
    Takeable s →
    exec (.amendWindow tag first last) s = .next (pump (accept 20 tag [] { s with
      rst := { s.rst with amend :=
        if first.toNat ≤ last.toNat then some (first.toNat, last.toNat) else none } }))) ∧
  (∀ t : Rst, (t.amend = none → ∀ n, t.mayAmend n = false) ∧
    ∀ a b n, t.amend = some (a, b) → (t.mayAmend n = true ↔ a ≤ n ∧ n ≤ b)) ∧
  ∀ s : State,
    (∀ t, exec .coldReset s = .next t → t.rst.amend = none) ∧ (clearJob s).rst.amend = none ∧
    (armJob s).rst.amend = s.rst.amend ∧ (endJob s).rst.amend = s.rst.amend ∧
    (abortJob s).rst.amend = s.rst.amend ∧
    ∃ counts, statusPage s 3 = some (counts ++ boolByte s.rst.amend.isSome ::
      le 4 ((s.rst.amend.map (·.1)).getD 0) ++ le 4 ((s.rst.amend.map (·.2)).getD 0))

/-! ### Register loops -/

/-- A computed output (R61, R72 to R74): the taps of a filter set mirror its coefficients about the middle of the
history, seven for ODD7 and eight for EVEN8; f lies within ±4,095; at the deadband or at a correction of 0 nothing is
issued; otherwise what is issued opposes f, lies within ±maxstep, and is the rounded −f × G / 256 when
that lies within ±maxstep. -/
def Obligations.LoopOutputOpposesError : Prop :=
  (∀ h0 h1 h2 h3 : Int,
    FilterSet.taps ⟨.odd7, h0, h1, h2, h3⟩ = [h0, h1, h2, h3, h2, h1, h0] ∧
    FilterSet.taps ⟨.even8, h0, h1, h2, h3⟩ = [h0, h1, h2, h3, h3, h2, h1, h0]) ∧
  ∀ (cfg : LoopSettings) (set : FilterSet) (history : List Int), 1 ≤ cfg.maxstep →
    let o := computeOutput cfg set history
    let raw := roundDiv (List.zipWith (· * ·) set.taps history).sum 512
    let c := roundDiv (-o.f * cfg.gain) 256
    o.f.natAbs ≤ 4095 ∧ (raw.natAbs ≤ 4095 → o.f = raw ∧ o.fclamp = false) ∧
    (4095 < raw.natAbs → o.f.natAbs = 4095 ∧ o.f.sign = raw.sign ∧ o.fclamp = true) ∧
    (o.f.natAbs ≤ cfg.deadband → o.issued = none ∧ o.deadband = true) ∧
    (cfg.deadband < o.f.natAbs → c = 0 → o.issued = none ∧ o.zero = true) ∧
    (cfg.deadband < o.f.natAbs → c ≠ 0 → ∃ k, o.issued = some k ∧ k ≠ 0 ∧ k.sign = -o.f.sign ∧
      k.natAbs ≤ cfg.maxstep ∧ (c.natAbs ≤ cfg.maxstep → k = c ∧ o.limited = false) ∧
      (cfg.maxstep < c.natAbs → k.natAbs = cfg.maxstep ∧ o.limited = true))

/-- What a loop makes of an input (R66 to R69, R71): OFF takes nothing, and a sample beyond twice the capture is a
miss. A good sample enters the history in FILL, TRACK and HOLD, is discarded in SETTLE and ends COAST with a
fresh history; a miss below the coast limit enters the last good sample again in FILL and TRACK, and at the
limit puts FILL, TRACK and SETTLE in COAST; a miss in HOLD enters it too, and HOLD is never left. After an
entry in FILL or TRACK a full history gives an output, which enters SETTLE when it issues a correction and
TRACK when it does not, and one that is not full gives FILL. A discarded input takes one off the settle
counter, and at its end FILL is entered with the history cleared. That a good sample discarded in SETTLE counts no
clamp, R71's count rising with an entry into the history alone, is deduced (log entry 18). -/
def Obligations.LoopInputsAreTaken : Prop :=
  ∀ (cfg : LoopSettings) (set : FilterSet) (capture : Nat) (l : Loop) (e : Int),
    let take := l.take cfg set capture
    let kept := if e < -4095 then -4095 else if 4095 < e then 4095 else e
    let up := fun n : Nat => min (n + 1) 65535
    let good := { l with missRun := 0, counts := { l.counts with good := up l.counts.good } }
    let entered := { good with
      history := (kept :: l.history).take 8, lastGood := some kept
      counts := { good.counts with clamps := if kept = e then l.counts.clamps else up l.counts.clamps } }
    let missed := { l with
      missRun := min (l.missRun + 1) 255, counts := { l.counts with misses := up l.counts.misses } }
    let again := fun x : Int => { missed with history := (x :: l.history).take 8 }
    let settled := fun l : Loop =>
      if l.settle ≤ 1 then { l with history := [], lastGood := none, settle := 0, state := .fill }
      else { l with settle := l.settle - 1 }
    let after := fun l : Loop =>
      let o := computeOutput cfg set l.history
      let clamps := if o.fclamp then up l.counts.filterClamps else l.counts.filterClamps
      if (match set.form with | .odd7 => 7 | .even8 => 8) ≤ l.history.length then
        match o.issued with
        | none => LoopResult.quiet { l with
            state := .track, last := some o, counts := { l.counts with filterClamps := clamps } }
        | some c =>
          { loop := { l with
              state := .settle, settle := cfg.settle, last := some o
              counts := { l.counts with
                filterClamps := clamps, corrections := up l.counts.corrections
                limited := if o.limited then up l.counts.limited else l.counts.limited } }
            change := none, correction := some c }
      else .quiet { l with state := .fill }
    let inReach := e.natAbs ≤ 2 * capture
    let atLimit := cfg.coastLimit ≤ min (l.missRun + 1) 255
    (∀ x, l.state = .off → take x = .quiet l) ∧ take .nothing = .quiet l ∧
    (2 * capture < e.natAbs → take (.sample e) = take .miss) ∧
    (inReach → l.state = .fill ∨ l.state = .track → take (.sample e) = after entered) ∧
    (inReach → l.state = .hold → take (.sample e) = .quiet entered) ∧
    (inReach → l.state = .settle → take (.sample e) = .quiet (settled good)) ∧
    (inReach → l.state = .coast → take (.sample e) =
      { loop := { entered with state := .fill, history := [kept] }
        change := some (.fill, .sample), correction := none }) ∧
    (l.state = .fill ∨ l.state = .track ∨ l.state = .settle → atLimit →
      take .miss =
        { loop := { missed with
            state := .coast, settle := 0, counts := { missed.counts with coasts := up l.counts.coasts } }
          change := some (.coast, .misses), correction := none }) ∧
    (l.state = .fill ∨ l.state = .track → ¬ atLimit →
      (l.lastGood = none → take .miss = .quiet missed) ∧
      ∀ x, l.lastGood = some x → take .miss = after (again x)) ∧
    (l.state = .settle → ¬ atLimit → take .miss = .quiet (settled missed)) ∧
    (l.state = .coast → take .miss = .quiet missed) ∧
    (l.state = .hold → (l.lastGood = none → take .miss = .quiet missed) ∧
      ∀ x, l.lastGood = some x → take .miss = .quiet (again x))

/-- REG_OUT is set exactly when, for some station from 2 to N, the mark is absent or its raw error exceeds
twice the register tolerance of its loop (R65). A record handed to the register loops with its marks has the raw
error of each, and gives the loop of its station that error as a sample or, without the mark, a miss; a record
handed without marks gives a miss, and one flagged SPLICE or UNMATCHED nothing (R63, R64). Each loop of a station
that exists takes what it is given and hands the correction it issues to its trim output; the REG group of a
record with marks holds the errors, the mask of the loops that issued, and REG_OUT (R64, R74). A loop that enters or
leaves COAST on the record raises its LOOP notice with the record's index (R69), before the TRIM_SAT notice that
its correction may raise (R83); that the loops do so in the order L1 to L7 is the model's choice (log entry 13). The
REG group of a record that is CLOSED is a late write, that of one not in the store an orphan (R46, R48). -/
def Obligations.RecordsGiveErrorsAndRegOut : Prop :=
  (∀ (j : JobSettings) (errors : Vector (Option Int) 7),
    regOut j errors = true ↔ ∃ i : Fin 7, i.val + 2 ≤ j.reader.stations ∧
      (errors[i] = none ∨
        ∃ e, errors[i] = some e ∧ 2 * j.loops[i.castSucc].tolerance < e.natAbs)) ∧
  ∀ (r : Record) (m : Option (Mark × Vector (Option Mark) 7)) (s : State),
    let t := rluTake r m s
    ∃ errors : Vector (Option Int) 7,
      (∀ key marks, m = some (key, marks) → ErrorsMeasured s.act key marks errors) ∧
      let gives := fun i : Fin 7 =>
        if r.splice.isSome || r.unmatched then LoopInput.nothing
        else if m.isNone then .miss
        else match errors[i] with
          | none => .miss
          | some e => .sample e
      let res := fun i : Fin 7 => loopAfter s.act i s.rlu.loops[i.castSucc] (gives i)
      (∀ i : Fin 7, i.val + 2 ≤ s.act.reader.stations →
        t.rlu.loops[i.castSucc] = (res i).loop ∧
        ((res i).correction = none → t.tou.trims[i.castSucc] = s.tou.trims[i.castSucc]) ∧
        ∀ c, (res i).correction = some c →
          t.tou.trims[i.castSucc] = (correctTrim i.castSucc c s).tou.trims[i.castSucc]) ∧
      (∀ i : Fin 8, i = 7 ∨ s.act.reader.stations < i.val + 2 →
        t.rlu.loops[i] = s.rlu.loops[i] ∧ t.tou.trims[i] = s.tou.trims[i]) ∧
      (let fed := ((List.finRange 7).filter fun i => i.val + 2 ≤ s.act.reader.stations).foldl (fun w i =>
           let old := w.rlu.loops[i.castSucc]
           let res := loopAfter s.act i old (gives i)
           let kept := { w with rlu := { loops := w.rlu.loops.set i.castSucc res.loop } }
           let told := match res.change with
             | none => kept
             | some (new, cause) => raise (.loop i.castSucc old.state new cause r.index) kept
           match res.correction with
           | none => told
           | some c => correctTrim i.castSucc c told) s
       (m = none → t = fed) ∧ t.rlu = fed.rlu ∧ t.tou = fed.tou ∧
       (m ≠ none → match s.rst.records.find? fun y => y.index == r.index with
         | none => t.link = fed.link ∧ t.rst = { s.rst with orphans := min (s.rst.orphans + 1) 65535 }
         | some x => if x.stage = .closed then
             t.link = (raise (.lateWrite .reg r.index x.rollNumber) fed).link ∧
               t.rst = { s.rst with late := { s.rst.late with reg := min (s.rst.late.reg + 1) 65535 } }
           else t.link = fed.link)) ∧
      (m = none → t.rst = s.rst) ∧
      (∀ x, m ≠ none → s.rst.records.find? (fun y => y.index == r.index) = some x → x.stage ≠ .closed →
        ∃ g : Reg, g.errors = errors ∧ g.out = regOut s.act errors ∧
          (∀ i : Fin 7, g.mask[i] = true ↔ i.val + 2 ≤ s.act.reader.stations ∧ (res i).correction ≠ none) ∧
          t.rst = { s.rst with
            records := s.rst.records.map fun y => if y.index = r.index then { y with reg := some g } else y }) ∧
      t.tou.draw = s.tou.draw ∧ t.epu = s.epu ∧ t.mrd = s.mrd ∧ t.rtk = s.rtk ∧ t.emc = s.emc ∧
      t.shu = s.shu ∧ t.wnc = s.wnc ∧ t.gru = s.gru ∧ t.lbu = s.lbu ∧ t.job = s.job ∧ t.act = s.act ∧
      t.store = s.store ∧ t.free = s.free ∧ t.pending = s.pending

/-- LOOP SET by the loop's state (R75). OFF on a loop that is OFF changes nothing, R75's row, where R88 can be
read to discard the steps of a jog: the model's choice (log entry 39). The cause and the index of the notice of
a loop that an order takes out of COAST, which R69 raises and names neither for, are free values: that it is
raised, and with them, is the model's choice (log entry 2). -/
def Obligations.LoopSetIsDecided : Prop :=
  ∀ (tag loop action : Byte) (s : State), Takeable s →
    let out := exec (.loopSet tag loop action) s
    let stops := fun r => out = .next (pump (refuse 14 tag r s))
    let becomes := fun t => out = .next (pump (accept 14 tag [] t))
    (loop = 0 ∨ 8 < loop.toNat ∨ 3 < action.toNat ∨
      (loop.toNat ≤ 7 ∧ s.act.reader.stations < loop.toNat + 1) → stops .value) ∧
    ∀ i : Fin 8, loop.toNat = i.val + 1 → i.val + 2 ≤ s.act.reader.stations ∨ i = 7 →
      let l := s.rlu.loops[i]
      let put := fun x => { s with rlu := { loops := s.rlu.loops.set i x } }
      let off := { l with state := .off, history := [], lastGood := none, missRun := 0, settle := 0 }
      let noSteps := { s.tou with
        trims := s.tou.trims.set i { s.tou.trims[i] with pending := 0, acc := 0 } }
      let notice := fun new => NoticeBody.loop i .coast new (.unstated (Config.freeCause s.free))
        (Config.freeIndex s.free).toNat
      (action = 0 → l.state = .off →
        becomes (put { l with state := .fill, history := [], lastGood := none, missRun := 0, settle := 0 })) ∧
      (action = 0 → l.state ≠ .off → becomes s) ∧
      (action = 1 → l.state = .off → becomes s) ∧
      (action = 1 → l.state ≠ .off → l.state ≠ .coast → becomes { put off with tou := noSteps }) ∧
      (action = 1 → l.state = .coast →
        becomes (raise (notice .off) { put off with tou := noSteps, free := s.free + 1 })) ∧
      (action = 2 → l.state = .off → stops .state) ∧
      (action = 2 → l.state = .hold → becomes s) ∧
      (action = 2 → l.state = .fill ∨ l.state = .track ∨ l.state = .settle →
        becomes (put { l with state := .hold, settle := 0 })) ∧
      (action = 2 → l.state = .coast →
        becomes (raise (notice .hold)
          { put { l with state := .hold, settle := 0 } with free := s.free + 1 })) ∧
      (action = 3 → l.state = .hold → ∀ f : FilterSet, s.act.loops[i].filterSet < 4 →
        s.act.filters[s.act.loops[i].filterSet]? = some f →
        becomes (put { l with state :=
          if (match f.form with | .odd7 => 7 | .even8 => 8) ≤ l.history.length then .track else .fill })) ∧
      (action = 3 → l.state ≠ .hold → stops .state)

/-! ### Trim and draw -/

/-- A correction scaled into steps (R82, R83, R85): whole steps of 128ths truncated toward zero with the rest
kept as the residue; the steps merge into P, which stops at ±4,095 with the excess dropped, counted and
reported; a new sign sets the direction line and clears the accumulator; the other outputs stay. -/
def Obligations.CorrectionsBecomeSteps : Prop :=
  ∀ (i : Fin 8) (c : Int) (s : State),
    let old := s.tou.trims[i]
    let t := correctTrim i c s
    let new := t.tou.trims[i]
    let total := old.residue + c * s.act.trims[i].scale
    let steps := total.tdiv 128
    let sum := old.pending + steps
    total = 128 * steps + new.residue ∧ new.residue.natAbs ≤ 127 ∧ (new.residue = 0 ∨ new.residue.sign = total.sign) ∧
    (sum.natAbs ≤ 4095 → new.pending = sum ∧ new.saturations = old.saturations ∧ new.dropped = old.dropped ∧
      t.link = s.link) ∧
    (4095 < sum.natAbs → new.pending.natAbs = 4095 ∧ new.pending.sign = sum.sign ∧
      new.saturations = min (old.saturations + 1) 65535 ∧
      new.dropped = min (old.dropped + (sum.natAbs - 4095)) 65535 ∧
      t.link = (raise (.trimSat i (sum.natAbs - 4095) new.pending (some i)) s).link) ∧
    (new.pending = 0 → new.acc = 0 ∧ new.line = old.line) ∧
    (new.pending ≠ 0 → new.pending.sign = old.pending.sign → new.acc = old.acc ∧ new.line = old.line) ∧
    (new.pending ≠ 0 → new.pending.sign ≠ old.pending.sign → new.acc = 0 ∧
      new.line = if s.act.trims[i].inverted then decide (0 < new.pending) else decide (new.pending < 0)) ∧
    new.forward = old.forward ∧ new.reverse = old.reverse ∧
    (∀ j : Fin 8, j ≠ i → t.tou.trims[j] = s.tou.trims[j]) ∧ t.tou.draw = s.tou.draw ∧
    t.epu = s.epu ∧ t.mrd = s.mrd ∧ t.rtk = s.rtk ∧ t.rst = s.rst ∧ t.rlu = s.rlu ∧ t.emc = s.emc ∧
    t.shu = s.shu ∧ t.wnc = s.wnc ∧ t.gru = s.gru ∧ t.lbu = s.lbu ∧ t.job = s.job ∧ t.act = s.act ∧
    t.store = s.store ∧ t.pending = s.pending

/-- A step emitted moves P one toward 0 and counts it by its direction: the accumulator falls by 10,000, and is 0
when P reaches 0 (R84, R89). Nothing is emitted with no step pending or the accumulator below 10,000; that a
TRIM_STEP taken then changes nothing is the model's choice (log entry 1). At the end of a draw period the
counter advances modulo 64 and the next high time is taken from V; the high times of the 64 periods of one
cycle add up to V (R91). -/
def Obligations.TrimStepsAndDrawPeriods : Prop :=
  (∀ (i : Fin 8) (s : State),
    let t := s.tou.trims[i]
    let put := fun x => { s with tou := { s.tou with trims := s.tou.trims.set i x } }
    (0 < t.pending → 10000 ≤ t.acc → exec (.trimStep i) s = .next (pump (put { t with
      pending := t.pending - 1, acc := if t.pending = 1 then 0 else t.acc - 10000
      forward := t.forward + 1 }))) ∧
    (t.pending < 0 → 10000 ≤ t.acc → exec (.trimStep i) s = .next (pump (put { t with
      pending := t.pending + 1, acc := if t.pending = -1 then 0 else t.acc - 10000
      reverse := t.reverse + 1 }))) ∧
    (t.pending = 0 ∨ t.acc < 10000 → exec (.trimStep i) s = .next (pump s))) ∧
  (∀ s : State,
    let d := s.tou.draw
    let k := (d.k + 1) % 64
    let m := d.v % 64
    exec .drawPeriodEnd s = .next (pump { s with tou := { s.tou with draw := { d with
      k, high := d.v / 64 + if k * m / 64 < (k + 1) * m / 64 then 1 else 0 } } })) ∧
  ∀ v : Nat, ((List.range 64).map (highTime v)).sum = v

/-- TRIM JOG (R88): VALUE for an output outside 1 to 8 or more than 2,047 steps, STATE unless the output's loop
is OFF or HOLD; accepted, its steps merge into P as a correction's do (R83), the residue and the step counts
stay, and a new sign sets the direction line and clears the accumulator, as P reaching 0 clears it (R84,
R85). -/
def Obligations.TrimJogMerges : Prop :=
  ∀ (tag output : Byte) (steps : BitVec 16) (s : State), Takeable s →
    let out := exec (.trimJog tag output steps) s
    let stops := fun r => out = .next (pump (refuse 16 tag r s))
    (output = 0 ∨ 8 < output.toNat ∨ 2047 < steps.toInt.natAbs → stops .value) ∧
    ∀ i : Fin 8, output.toNat = i.val + 1 → steps.toInt.natAbs ≤ 2047 →
      let mayJog := s.rlu.loops[i].state = .off ∨ s.rlu.loops[i].state = .hold
      let old := s.tou.trims[i]
      let sum := old.pending + steps.toInt
      (¬ mayJog → stops .state) ∧
      (mayJog → ∃ new : Trim,
        let t := { s with tou := { s.tou with trims := s.tou.trims.set i new } }
        new.residue = old.residue ∧ new.forward = old.forward ∧ new.reverse = old.reverse ∧
        (new.pending = 0 → new.acc = 0 ∧ new.line = old.line) ∧
        (new.pending ≠ 0 → new.pending.sign = old.pending.sign → new.acc = old.acc ∧ new.line = old.line) ∧
        (new.pending ≠ 0 → new.pending.sign ≠ old.pending.sign → new.acc = 0 ∧
          new.line = if s.act.trims[i].inverted then decide (0 < new.pending) else decide (new.pending < 0)) ∧
        (sum.natAbs ≤ 4095 → new.pending = sum ∧ new.saturations = old.saturations ∧
          new.dropped = old.dropped ∧ out = .next (pump (accept 16 tag [] t))) ∧
        (4095 < sum.natAbs → new.pending.natAbs = 4095 ∧ new.pending.sign = sum.sign ∧
          new.saturations = min (old.saturations + 1) 65535 ∧
          new.dropped = min (old.dropped + (sum.natAbs - 4095)) 65535 ∧
          out = .next (pump (accept 16 tag []
            (raise (.trimSat i (sum.natAbs - 4095) new.pending none) t)))))

/-! ### The nip -/

/-- The expiry of the nip timer (R105, R109): ENGAGING becomes ENGAGED; LIFTING becomes LIFTED, and with
auto-engage on and its flag set an engage starts at once when every condition of R107 holds. That an expiry
with the timer not run out, or in LIFTED or ENGAGED, changes no nip state is the model's choice (log entry
1). -/
def Obligations.NipTimerExpiryMovesNip : Prop :=
  ∀ s : State,
    let idle := { s.emc.timer with current := 0, running := false, due := false }
    let auto := s.emc.autoPending = true ∧ s.act.emboss.autoEngage = true ∧ s.job.state = .armed ∧
      (s.act.emboss.minSpeed : Int) ≤ s.epu.d.speed ∧ ∀ w ∈ s.emc.watch, s.inZone w = false
    let out := exec .nipTimerExpiry s
    (s.emc.timer.due = false → out = .next (pump s)) ∧
    (s.emc.timer.due = true → s.emc.nip = .engaging →
      out = .next (pump (raise (.nip .engaging .engaged .timer s.epu.d.pos)
        { s with emc := { s.emc with nip := .engaged, timer := idle } }))) ∧
    (s.emc.timer.due = true → s.emc.nip = .lifting → ¬ auto →
      out = .next (pump (raise (.nip .lifting .lifted .timer s.epu.d.pos)
        { s with emc := { s.emc with nip := .lifted, timer := idle } }))) ∧
    (s.emc.timer.due = true → s.emc.nip = .lifting → auto →
      out = .next (pump (raise (.nip .lifted .engaging .auto s.epu.d.pos)
        (raise (.nip .lifting .lifted .timer s.epu.d.pos)
          { s with emc := { s.emc with
              nip := .engaging, autoPending := false, timer := idle.start s.act.emboss.engageTime } })))) ∧
    (s.emc.timer.due = true → s.emc.nip = .lifted ∨ s.emc.nip = .engaged →
      out = .next (pump { s with emc := { s.emc with timer := idle } }))

/-- ENGAGE is refused STATE unless the job is ARMED, the nip LIFTED and D fast enough, and CLEARANCE while a
watched splice is in its zone; LIFT is always accepted; and a lift of any cause takes ENGAGING and ENGAGED
to LIFTING and changes neither of the other states (R105 to R107). -/
def Obligations.EngageAndLiftAreDecided : Prop :=
  ∀ s : State,
    (∀ tag, Takeable s →
      let ready := s.job.state = .armed ∧ s.emc.nip = .lifted ∧
        (s.act.emboss.minSpeed : Int) ≤ s.epu.d.speed
      (¬ ready → exec (.engage tag) s = .next (pump (refuse 17 tag .state s))) ∧
      (ready → (∃ w ∈ s.emc.watch, s.inZone w = true) →
        exec (.engage tag) s = .next (pump (refuse 17 tag .clearance s))) ∧
      (ready → (∀ w ∈ s.emc.watch, s.inZone w = false) →
        exec (.engage tag) s = .next (pump (accept 17 tag []
          (raise (.nip .lifted .engaging .host s.epu.d.pos) { s with emc := { s.emc with
            nip := .engaging, autoPending := false
            timer := s.emc.timer.start s.act.emboss.engageTime } }))))) ∧
    (∀ tag, Takeable s →
      exec (.lift tag) s = .next (pump (accept 18 tag [] (liftNip .host s)))) ∧
    ∀ cause,
      let flag := if cause = .host ∨ cause = .spliceLost ∨ cause = .job then false else s.emc.autoPending
      (s.emc.nip = .engaging ∨ s.emc.nip = .engaged → liftNip cause s =
        raise (.nip s.emc.nip .lifting cause s.epu.d.pos) { s with emc := { s.emc with
          nip := .lifting, lastLift := cause, autoPending := flag
          timer := s.emc.timer.start s.act.emboss.liftTime } }) ∧
      (s.emc.nip = .lifting ∨ s.emc.nip = .lifted → liftNip cause s = { s with emc := { s.emc with
        lastLift := if cause = .host ∨ cause = .spliceLost then cause else s.emc.lastLift
        autoPending := flag } })

/-- The splice watch list at a count of D, the last that the count does to it (R108, R109). Each entry holds whether D
has passed its lift point; when D passes one that it had not passed at the count before, an ENGAGING or ENGAGED nip
is lifted with cause SPLICE, its NIP notice and its lift time. Then the entries whose departure point D has passed
leave, one after another from the front; each, with auto-engage on, the last lift cause SPLICE and the nip LIFTING or
LIFTED, sets the pending flag, and the auto-engage is tried with the entries that are left. What an entry holds of its
lift point is what D has passed, and the commands that move D, enter splices or move lift points keep it so. While
a watched splice is in its clearance zone the nip is neither ENGAGING nor ENGAGED, and these commands keep it so: a
forward count of D, with no splice a whole wrap behind; a count of U, which hands splices over; a speed measurement
and the expiry of the nip timer, which may engage it (R109); an ENGAGE order and a splice pulse (R107, R108). A web
that runs back, and settings that move the zone, are outside that last part. That a web which runs back behind a lift
point meets it again, and that settings which put a lift point behind D count as its passing without a lift, is the
model's choice (log entry 4), and so is that lift points come before departures (log entry 12). -/
def Obligations.NipStaysClearOfSplices : Prop :=
  (∀ s : State,
    let d := s.epu.d.pos
    let e := s.act.emboss
    let on := s.emc.nip = .engaging ∨ s.emc.nip = .engaged
    let liftPassed := fun w : Watched => decide (0 < posDiff d (posShift w.pos ((e.nipDistance : Int) - e.liftLead)))
    let departs := fun w : Watched => decide (0 < posDiff d (posShift w.pos ((e.nipDistance : Int) + e.trailing)))
    let marked : State := { s with emc := { s.emc with
      watch := s.emc.watch.map fun w => { w with liftPassed := liftPassed w } } }
    let newly := ∃ w ∈ s.emc.watch, w.liftPassed = false ∧ liftPassed w = true
    let lifted : State := { marked with emc := { marked.emc with
      nip := .lifting, lastLift := .splice, timer := s.emc.timer.start e.liftTime } }
    let leaves : State → Watched → State := fun x w =>
      let y : State := { x with emc := { x.emc with watch := x.emc.watch.erase w } }
      if e.autoEngage = true ∧ y.emc.lastLift = .splice ∧ (y.emc.nip = .lifting ∨ y.emc.nip = .lifted) then
        if y.job.state = .armed ∧ y.emc.nip = .lifted ∧ (e.minSpeed : Int) ≤ y.epu.d.speed ∧
            ∀ v ∈ y.emc.watch, y.inZone v = false then
          raise (.nip .lifted .engaging .auto d) { y with emc := { y.emc with
            nip := .engaging, autoPending := false, timer := y.emc.timer.start e.engageTime } }
        else { y with emc := { y.emc with autoPending := true } }
      else y
    (∀ w, s.inZone w = true ↔
      liftPassed w = true ∧ ¬ 0 < posDiff d (posShift w.pos (e.nipDistance : Int))) ∧
    (newly → on → watchSweep s = (marked.emc.watch.filter departs).foldl leaves
      (raise (.nip s.emc.nip .lifting .splice d) lifted)) ∧
    (¬ (newly ∧ on) → watchSweep s = (marked.emc.watch.filter departs).foldl leaves marked)) ∧
  ∀ s t : State,
    let held := fun x : State => ∀ w ∈ x.emc.watch,
      w.liftPassed = passed x.epu.d.pos (x.act.emboss.liftPoint w)
    (held s → ∀ c ∈ [Instr.coldReset, .encoderCount .wind .forward, .encoderCount .wind .backward,
        .encoderCount .print .forward, .encoderCount .print .backward, .speedMeasurement, .splicePulse,
        .nipTimerExpiry], exec c s = .next t → held t) ∧
    (held s → ∀ tag, Takeable s → (∀ slot, exec (.jobLoad tag slot) s = .next t → held t) ∧
      (∀ group contents, exec (.jobSet tag group contents) s = .next t → held t) ∧
      (exec (.engage tag) s = .next t → held t) ∧ (exec (.lift tag) s = .next t → held t)) ∧
    (NipClear s →
      (held s → (∀ w ∈ s.emc.watch, posDiff s.epu.d.pos (s.act.emboss.nipPoint w) ≠ 2 ^ 39 - 1) →
        exec (.encoderCount .wind .forward) s = .next t → NipClear t) ∧
      (∀ dir, exec (.encoderCount .print dir) s = .next t → NipClear t) ∧
      (exec .speedMeasurement s = .next t → NipClear t) ∧
      (∀ tag, exec (.engage tag) s = .next t → NipClear t) ∧
      (exec .splicePulse s = .next t → NipClear t) ∧ (exec .nipTimerExpiry s = .next t → NipClear t))

/-! ### Emboss records and fiducials -/

/-- What a record that becomes DOWNSTREAM with a key_D does, seen or unseen, before the Winder Controller is told
(R94, R96 to R101, R103): its EMB group and stage; the gap, the last downstream record and the pairing key; L_D and
the stretch of the record of the index before it, the last L_D, the stretch history and the draw command; and a
fiducial repeat left unpaired, the old pairing key or the unseen record itself or both in this order, that was stamped
ENGAGED and carries no SPLICE is missing and a miss for L8, with L8's LOOP notice and what its correction gives T8. A
write to a CLOSED record is a late write with its notice, one to a record not in the store an orphan (R46, R48). Every
other record, T1 to T7, L1 to L7 and the rest of the state stay. That the Winder Controller is told last, behind L_D
and the misses, which R47 and R98 leave open, and that the unseen record's own miss comes behind L_D, is the model's
choice (log entry 12); that a record already freed has no stretch is deduced (log entry 36). -/
def Obligations.RecordsBecomeDownstream : Prop :=
  ∀ (r : Record) (seen : Bool) (keyD : HalfPos) (s : State),
    let cfg := s.act.emboss
    let seenUp := !r.predicted && !r.missed
    let find := fun (t : State) (i : Nat) => t.rst.records.find? fun x => x.index == i
    let fiducial := cfg.ratio = 1 ∨ ∃ c : Nibble, r.counter = some c ∧ c.toNat % cfg.ratio = cfg.lockIndex
    let oldMissing := ∃ k, s.emc.pairKey = some k ∧ k.fiducial = true ∧ k.paired = false ∧ k.nip = some true ∧
      k.splice = false
    let newMissing := seen = false ∧ fiducial ∧ r.emb.bind (·.nip) = some true ∧ r.splice = none
    let up := fun n : Nat => min (n + 1) 65535
    let before := s.emc.lastDown.filter fun q => q.index + 1 == r.index
    let other := fun x : Record => x.index != r.index && before.all fun q => q.index != x.index
    let writes := fun p : Nat → Bool => (p r.index).toNat + (before.elim 0 fun q => (p q.index).toNat)
    let tell := fun (i : Nat) (v : State) => match find s i with
      | some x => if x.stage = .closed then raise (.lateWrite .emb i x.rollNumber) v else v
      | none => v
    let written := fun v : State => before.elim (tell r.index v) fun q => tell q.index (tell r.index v)
    let given := fun w v : State => w.rlu = v.rlu ∧ w.tou.trims = v.tou.trims ∧ w.link = v.link
    ∃ w : State, makeDownstream r seen keyD s = wncDownstream r.index keyD w ∧
      w.emc.gap = min (s.emc.gap + 1) 255 ∧ w.emc.lastDown = some ⟨r.index, keyD, seen, seenUp⟩ ∧
      (seen = false → w.emc.pairKey = none) ∧
      (seen = true → ∃ k, w.emc.pairKey = some k ∧ k.index = r.index ∧ k.keyD = keyD ∧
        (k.fiducial = true ↔ fiducial) ∧ k.nip = r.emb.bind (·.nip) ∧ k.splice = r.splice.isSome ∧
        k.paired = false) ∧
      (∀ x, find s r.index = some x → x.stage ≠ .closed → find w r.index = some { x with
        stage := if x.stage = .assigned then .assigned else .downstream
        emb := some { x.emb.getD .blank with seenAt := some ⟨seen, keyD⟩ } }) ∧
      ((∀ q, s.emc.lastDown = some q → q.index + 1 ≠ r.index) →
        w.emc.lastLD = s.emc.lastLD ∧ w.emc.stretch = s.emc.stretch ∧ w.tou.draw = s.tou.draw ∧
        w.emc.counts.stretchRejects = s.emc.counts.stretchRejects) ∧
      (∀ q, s.emc.lastDown = some q → q.index + 1 = r.index →
        let lD := roundDiv (halfDiff keyD q.keyD) 2
        let both := q.seen = true ∧ seen = true
        let counted := fun lU : Int => (∃ p, find s q.index = some p ∧ p.lU = some lU) ∧ both ∧
          q.seenUp = true ∧ seenUp = true
        w.emc.lastLD = (if q.seen = true ∧ seen = true then some lD else s.emc.lastLD) ∧
        (∀ p, find s q.index = some p → p.stage ≠ .closed →
          ((∀ lU, ¬ counted lU) → find w q.index =
            some { p with emb := some { p.emb.getD .blank with lD := some lD } }) ∧
          ∀ lU, counted lU → find w q.index = some { p with emb := some { p.emb.getD .blank with
            lD := some lD, stretch := some (roundDiv ((lD - lU) * 1000000) lU) } }) ∧
        ((∀ lU, ¬ counted lU) → w.emc.stretch = s.emc.stretch ∧ w.tou.draw = s.tou.draw ∧
          w.emc.counts.stretchRejects = s.emc.counts.stretchRejects) ∧
        ∀ lU, counted lU →
          let x := roundDiv ((lD - lU) * 1000000) lU
          let history := (if 8 ≤ s.emc.stretch.length then s.emc.stretch.drop 1 else s.emc.stretch) ++ [x]
          let c := mean history - cfg.designStretch
          let kept := if c < -20000 then -20000 else if 20000 < c then 20000 else c
          (50000 < x.natAbs → w.emc.stretch = s.emc.stretch ∧ w.tou.draw = s.tou.draw ∧
            w.emc.counts.stretchRejects = min (s.emc.counts.stretchRejects + 1) 65535) ∧
          (x.natAbs ≤ 50000 → w.emc.stretch = history ∧
            w.emc.counts.stretchRejects = s.emc.counts.stretchRejects ∧
            w.tou.draw = { s.tou.draw with
              v := (roundDiv ((kept + 20000) * 65535) 40000).toNat, command := c
              clamps := if kept = c then s.tou.draw.clamps else min (s.tou.draw.clamps + 1) 65535 })) ∧
      -- what L8 is handed, and the notices: those of L8 and trim 8, and of a write to a CLOSED record
      (¬ oldMissing → ¬ newMissing → given w (written s) ∧ w.emc.counts.missing = s.emc.counts.missing) ∧
      (∀ k, oldMissing → ¬ newMissing → s.emc.pairKey = some k →
        given w (written (takeInput 7 .miss k.index s)) ∧
        w.emc.counts.missing = min (s.emc.counts.missing + 1) 65535) ∧
      (¬ oldMissing → newMissing → given w (takeInput 7 .miss r.index (written s)) ∧
        w.emc.counts.missing = min (s.emc.counts.missing + 1) 65535) ∧
      (∀ k, oldMissing → newMissing → s.emc.pairKey = some k →
        given w (takeInput 7 .miss r.index (written (takeInput 7 .miss k.index s))) ∧
        w.emc.counts.missing = min (s.emc.counts.missing + 2) 65535) ∧
      -- what else stays: trims T1 to T7 and the other loops, every other record, and the rest of the state
      (∀ i : Fin 8, i ≠ 7 → w.tou.trims[i] = s.tou.trims[i] ∧ w.rlu.loops[i] = s.rlu.loops[i]) ∧
      w.rst.records.map (·.index) = s.rst.records.map (·.index) ∧
      w.rst.records.filter other = s.rst.records.filter other ∧
      (∀ i x, find s i = some x → x.stage = .closed → find w i = some x) ∧
      w.rst = { s.rst with
        records := w.rst.records
        orphans := up^[writes fun i => (find s i).isNone] s.rst.orphans
        late := { s.rst.late with
          emb := up^[writes fun i => (find s i).any fun x => x.stage == .closed] s.rst.late.emb } } ∧
      w.emc = { s.emc with
        gap := w.emc.gap, lastDown := w.emc.lastDown, pairKey := w.emc.pairKey, lastLD := w.emc.lastLD
        stretch := w.emc.stretch
        counts := { s.emc.counts with
          missing := w.emc.counts.missing, stretchRejects := w.emc.counts.stretchRejects } } ∧
      w = { s with rst := w.rst, rlu := w.rlu, tou := w.tou, emc := w.emc, link := w.link }

/-- What an emboss group and a fiducial are paired with, and what is stamped at the nip. A group belongs to the first
of its candidates, the oldest TRANSFERRED record and those of the two after it that are TRANSFERRED, within the window
and with no differing counter; the candidates before it become DOWNSTREAM unseen, and without one it is unidentified
(R96). A record unseen is given its key_D by the last length, or by key_T (R97). A fiducial is paired with an unpaired
pairing key: rightly with a fiducial repeat, as a WRONG_REPEAT with another record when the gap is E or more, and
otherwise it is unpaired; phase, L8's sample or miss, the consecutive counts and their lifts follow (R102 to R104).
The next record due at the same count is made unseen, or stamped, after the first (R97, R110). L8 takes what it is
given with its own settings and its own capture, raises its LOOP notice, and hands the correction it issues to T8; no
record is written and no mask entered (R69, R77, R78). A record is stamped with the nip state when its place passes
the nip (R110). That a consecutive count is tested, and lifts the nip, also when it stands at its limit of 15 and does
not change is deduced (log entry 27). -/
def Obligations.EmbossGroupsAndFiducialsArePaired : Prop :=
  (∀ (g : EmbossGroup) (s : State),
    let c := centreSum g.key.lead g.key.trail
    let fits := fun r : Record =>
      (halfDiff c (half (posShift (r.keyT.getD 0) s.act.emboss.scannerDistance))).natAbs ≤ 2 * s.act.emboss.window ∧
        ∀ x y, (counterWord g.cells).value = some x → r.counter = some y → x = y
    (∀ before r after, s.rst.candidates = before ++ r :: after → (∀ x ∈ before, ¬ fits x) → fits r →
      takeEmbossGroup g s = makeDownstream r true c (before.foldl (fun w x => makeUnseen x w)
        { s with emc := { s.emc with counts := { s.emc.counts with
            skipped := min (s.emc.counts.skipped + before.length) 65535 } } })) ∧
    ((∀ r ∈ s.rst.candidates, ¬ fits r) → takeEmbossGroup g s = { s with emc := { s.emc with
      pairKey := none
      counts := { s.emc.counts with unidentified := min (s.emc.counts.unidentified + 1) 65535 } } }) ∧
    (∀ xs x ys, s.rst.records = xs ++ x :: ys → (∀ r ∈ xs, r.stage ≠ .transferred) → x.stage = .transferred →
      s.rst.candidates = x :: (ys.take 2).filter fun r => r.stage == .transferred) ∧
    ((∀ r ∈ s.rst.records, r.stage ≠ .transferred) → s.rst.candidates = [])) ∧
  (∀ (r : Record) (s : State),
    let counted := { s with emc := { s.emc with counts := { s.emc.counts with
      predicted := min (s.emc.counts.predicted + 1) 65535 } } }
    let scanned := half (posShift (r.keyT.getD 0) s.act.emboss.scannerDistance)
    (∀ q l, s.emc.lastDown = some q → s.emc.lastLD = some l → q.index + 1 = r.index →
      makeUnseen r s = makeDownstream r false (halfShift q.keyD (2 * l)) counted) ∧
    (s.emc.lastDown = none ∨ s.emc.lastLD = none ∨ (∃ q, s.emc.lastDown = some q ∧ q.index + 1 ≠ r.index) →
      makeUnseen r s = makeDownstream r false scanned counted) ∧
    let expired := fun (x : Record) (w : State) =>
      let cfg := w.act.reader
      0 < posDiff w.epu.d.pos (posShift (x.keyT.getD 0)
        (w.act.emboss.scannerDistance + w.act.emboss.window + (cfg.codeOffset + 23 * cfg.pitch) + 1))
    let oldest := fun w : State => w.rst.records.find? fun x => x.stage == .transferred
    let onLine := s.job.state = .armed ∨ s.job.state = .draining
    (¬ onLine → unseenSweep s = s) ∧ (oldest s = none → unseenSweep s = s) ∧
    (oldest s = some r → ¬ expired r s → unseenSweep s = s) ∧
    (onLine → oldest s = some r → expired r s → StoreOrdered s → unseenSweep s = unseenSweep (makeUnseen r s)) ∧
    (onLine → oldest s = some r → expired r s →
      (∀ x, oldest (makeUnseen r s) = some x → ¬ expired x (makeUnseen r s)) →
      unseenSweep s = makeUnseen r s) ∧
    let next := fun w : State => w.rst.records.find? fun x => w.emc.stampFrom ≤ x.index
    let passes := fun (x : Record) (w : State) => ∃ p, x.keyT = some p ∧
      0 < posDiff w.epu.d.pos (posShift p w.act.emboss.nipDistance)
    (¬ onLine → stampSweep s = s) ∧ (next s = none → stampSweep s = s) ∧
    (next s = some r → ¬ passes r s → stampSweep s = s) ∧
    (onLine → next s = some r → passes r s → stampSweep s = stampSweep (stampRecord r s)) ∧
    (onLine → next s = some r → passes r s →
      (∀ x, next (stampRecord r s) = some x → ¬ passes x (stampRecord r s)) → stampSweep s = stampRecord r s) ∧
    stampRecord r s =
      let w := writePart .emb r.index (fun x => { x with emb := some { x.emb.getD .blank with
        nip := some (s.emc.nip == .engaged) } }) s
      { w with emc := { w.emc with
        stampFrom := r.index + 1
        pairKey := w.emc.pairKey.map fun k =>
          if k.index = r.index then { k with nip := some (s.emc.nip == .engaged) } else k } }) ∧
  (∀ (x : LoopInput) (index : Nat) (set : FilterSet) (s : State),
    let cfg := s.act.loops[(7 : Fin 8)]
    s.act.filters[cfg.filterSet]? = some set →
    let l := s.rlu.loops[(7 : Fin 8)]
    let res := l.take cfg set cfg.tolerance x
    let kept := { s with rlu := { loops := s.rlu.loops.set (7 : Fin 8) res.loop } }
    let told := match res.change with
      | none => kept
      | some (new, cause) => raise (.loop 7 l.state new cause index) kept
    (res.correction = none → takeInput 7 x index s = told) ∧
    ∀ c, res.correction = some c → takeInput 7 x index s = correctTrim 7 c told) ∧
  ∀ (f : HalfPos) (s : State),
    let cfg := s.act.emboss
    let t := takeFiducial f s
    let unpaired := { s with emc := { s.emc with counts := { s.emc.counts with
      unpaired := min (s.emc.counts.unpaired + 1) 65535 } } }
    (s.emc.pairKey = none → t = unpaired) ∧
    (∀ k, s.emc.pairKey = some k → k.paired = true → t = unpaired) ∧
    (∀ k, s.emc.pairKey = some k → k.paired = false → k.fiducial = false → s.emc.gap < cfg.ratio →
      t = unpaired) ∧
    (∀ k, s.emc.pairKey = some k → k.paired = false → k.fiducial = true →
      let e := halfDiff f k.keyD - 2 * (cfg.nominal : Int)
      let large := 2 * cfg.abortLimit < e.natAbs
      let n := min (s.emc.overRun + 1) 15
      let w := writePart .emb k.index (fun x => { x with emb := some { x.emb.getD .blank with
        phase := some e, out := decide (2 * cfg.tolerance < e.natAbs) } }) s
      let w := { w with emc := { w.emc with
        pairKey := some { k with paired := true }, gap := 0, wrongRun := 0 } }
      let v := takeInput 7 (.sample e) k.index w
      (k.splice = true → t = w) ∧
      (k.splice = false → ¬ large → t = { v with emc := { v.emc with overRun := 0 } }) ∧
      (k.splice = false → large → n < cfg.abortCount ∨ s.emc.nip.valve = false →
        t = { v with emc := { v.emc with overRun := n } }) ∧
      (k.splice = false → large → cfg.abortCount ≤ n → s.emc.nip.valve = true →
        t = liftNip .phase { v with emc := { v.emc with overRun := 0, wrongRun := 0 } })) ∧
    ∀ k, s.emc.pairKey = some k → k.paired = false → k.fiducial = false → cfg.ratio ≤ s.emc.gap →
      let n := min (s.emc.wrongRun + 1) 15
      let w := writePart .emb k.index (fun x => { x with emb := some { x.emb.getD .blank with
        phase := none, wrongRepeat := true } }) s
      let w := { w with emc := { w.emc with
        pairKey := some { k with paired := true }, gap := 0, wrongRun := n
        counts := { w.emc.counts with wrongRepeats := min (w.emc.counts.wrongRepeats + 1) 65535 } } }
      let v := takeInput 7 .miss k.index w
      (n < 2 ∨ s.emc.nip ≠ .engaged → t = v) ∧
      (2 ≤ n → s.emc.nip = .engaged →
        t = liftNip .wrongRepeat { v with emc := { v.emc with overRun := 0, wrongRun := 0 } })

/-! ### Shade -/

/-- The triggers that D has passed. The polls on the line are their four bytes (R115). A trigger that D has not passed
waits; one that it has passed starts a cycle with the next sequence number, the trigger output on and the first
enabled head polled, and the next trigger is looked at in the state that it leaves (R118, R119). A cycle still polling
is overrun and ended first: its heads not yet answered are cut short, the overrun is counted, and its sample is made
of the answers it has (R121 to R124), as a late write with its notice when the record is CLOSED (R48). With no head
enabled the new cycle ends as it starts. That the abandoned poll stays on the line ahead of the new one is the model's
choice, and that a poll counts when it is put there is deduced (log entry 17). -/
def Obligations.TriggersStartCycles : Prop :=
  (∀ p : Poll, ∃ a c : Byte, p.wire = [0xE7, a, p.seq, c] ∧ a.toNat = p.head.val + 1 ∧ a + p.seq + c = 0xFF) ∧
  (∀ u : Shu, u.wire = u.sending.flatMap Poll.wire) ∧
  ∀ s : State,
    let due := fun t : Trigger => 0 < posDiff s.epu.d.pos t.pos
    let up := fun n : Nat => min (n + 1) 65535
    (s.shu.queue = [] → shadeSweep s = s) ∧
    (∀ x xs, s.shu.queue = x :: xs → ¬ due x → shadeSweep s = s) ∧
    ∀ x xs, s.shu.queue = x :: xs → due x →
      let t := takeTrigger x { s with shu := { s.shu with queue := xs } }
      let cut := fun (c : PollCycle) (i : Fin 4) (v : Head) => if i ∈ c.inFlight.toList ++ c.todo then
        { v with counts := { v.counts with cutShort := up v.counts.cutShort } } else v
      shadeSweep s = shadeSweep t ∧ ((∀ y ∈ xs.head?, ¬ due y) → shadeSweep s = t) ∧
      t = { s with shu := t.shu, rst := t.rst, link := t.link } ∧ t.shu.answer = s.shu.answer ∧
      ((∀ i : Fin 4, s.act.heads[i].enabled = false) →
        let cycle : PollCycle := ⟨x.index, s.shu.nextSeq, [], none, []⟩
        let counted := fun n : ShuCounts => { n with triggers := up n.triggers }
        t.shu.cycle = none ∧ t.shu.queue = xs ∧ t.shu.nextSeq = s.shu.nextSeq + 1 ∧ t.shu.triggerOut = true ∧
        t.shu.sending = s.shu.sending ∧
        t.shu.timer = { s.shu.timer with current := 0, running := false, due := false } ∧
        (s.shu.cycle = none → CycleEnded cycle [] (counted s.shu.counts) s t ∧ t.shu.heads = s.shu.heads) ∧
        ∀ c, s.shu.cycle = some c →
          ((c.inFlight.toList ++ c.todo).Nodup → ∀ i : Fin 4, t.shu.heads[i] = cut c i s.shu.heads[i]) ∧
          ∃ v : State, v.act = s.act ∧ v.epu = s.epu ∧
            CycleEnded c c.answers { s.shu.counts with overruns := up s.shu.counts.overruns } s v ∧
            CycleEnded cycle [] (counted v.shu.counts) v t) ∧
      ∀ h hs, (∀ i : Fin 4, i ∈ h :: hs ↔ s.act.heads[i].enabled = true) → (h :: hs).Pairwise (· < ·) →
      let polled := fun v : Head => { v with counts := { v.counts with polls := up v.counts.polls } }
      let cycle : PollCycle := ⟨x.index, s.shu.nextSeq, hs, some h, []⟩
      (s.shu.cycle = none → t = { s with shu := { s.shu with
        queue := xs, cycle := some cycle, nextSeq := s.shu.nextSeq + 1, triggerOut := true
        heads := s.shu.heads.set h (polled s.shu.heads[h])
        sending := s.shu.sending ++ [⟨h, s.shu.nextSeq⟩]
        counts := { s.shu.counts with triggers := up s.shu.counts.triggers } } }) ∧
      ∀ c, s.shu.cycle = some c → (c.inFlight.toList ++ c.todo).Nodup →
        t.shu.cycle = some cycle ∧ t.shu.queue = xs ∧ t.shu.nextSeq = s.shu.nextSeq + 1 ∧
        t.shu.triggerOut = true ∧ t.shu.sending = s.shu.sending ++ [⟨h, s.shu.nextSeq⟩] ∧
        t.shu.timer = { s.shu.timer with current := 0, running := false, due := false } ∧
        (∀ i : Fin 4, t.shu.heads[i] = if i = h then polled (cut c i s.shu.heads[i]) else cut c i s.shu.heads[i]) ∧
        (∃ w, CycleEnded c c.answers { s.shu.counts with overruns := up s.shu.counts.overruns } s w ∧
          t.rst = w.rst ∧ t.link = w.link ∧
          t.shu.counts = { w.shu.counts with triggers := up w.shu.counts.triggers })

/-- The poll on the line sent starts the head timeout when it is the poll in flight; the timeout's expiry is a failed
poll, which counts toward ABSENT, at the eighth with a HEAD notice that carries the cycle's sequence number and D,
and the next head on the list is polled or the cycle ends, with a sample when enough heads have answered (R119 to
R124). That the poll of a cycle already overrun starts no timeout is deduced (log entry 17), and that an expiry with
the timer not run out changes nothing is the model's choice (log entry 1). -/
def Obligations.PollsAndTimeouts : Prop :=
  ∀ s : State,
    let idle := { s.shu.timer with current := 0, running := false, due := false }
    (s.shu.sending = [] → exec .pollSent s = .next (pump s)) ∧
    (∀ p rest, s.shu.sending = p :: rest →
      (∀ c, s.shu.cycle = some c → c.inFlight = some p.head → c.seq = p.seq →
        exec .pollSent s = .next (pump { s with shu := { s.shu with
          sending := rest, timer := s.shu.timer.start s.act.shade.timeout } })) ∧
      (s.shu.cycle = none ∨ (∃ c, s.shu.cycle = some c ∧ ¬ (c.inFlight = some p.head ∧ c.seq = p.seq)) →
        exec .pollSent s = .next (pump { s with shu := { s.shu with sending := rest } }))) ∧
    (s.shu.timer.due = false → exec .headTimeoutExpiry s = .next (pump s)) ∧
    (s.shu.timer.due = true → s.shu.cycle = none ∨ (∃ c, s.shu.cycle = some c ∧ c.inFlight = none) →
      exec .headTimeoutExpiry s = .next (pump { s with shu := { s.shu with timer := idle } })) ∧
    ∀ c h, s.shu.timer.due = true → s.shu.cycle = some c → c.inFlight = some h →
      let old := s.shu.heads[h]
      let up := fun n : Nat => min (n + 1) 65535
      let n := min (old.failures + 1) 8
      let failed := { old with failures := n, absent := old.absent || n == 8
                               counts := { old.counts with failures := up old.counts.failures } }
      let kept := { s with shu := { s.shu with timer := idle, heads := s.shu.heads.set h failed } }
      let told := if old.absent = false ∧ n = 8 then raise (.head h .absent c.seq s.epu.d.pos) kept else kept
      (∀ k rest, c.todo = k :: rest →
        let x := told.shu.heads[k]
        exec .headTimeoutExpiry s = .next (pump { told with shu := { told.shu with
          cycle := some { c with todo := rest, inFlight := some k }
          sending := s.shu.sending ++ [⟨k, c.seq⟩]
          heads := told.shu.heads.set k { x with counts := { x.counts with polls := up x.counts.polls } } } })) ∧
      (c.todo = [] → ∃ t, exec .headTimeoutExpiry s = .next (pump t) ∧
        CycleEnded c c.answers s.shu.counts told t ∧
        t = { told with
          shu := { told.shu with cycle := none, counts := t.shu.counts }, rst := t.rst, link := t.link })

/-- A byte of the head line (R115): a byte outside an answer is ignored, the eleventh byte completes it, an answer
that is not well-formed or not the one awaited is counted and ignored, and the awaited answer is taken: an OK
one is gathered, a LAMP one sets the head's lamp flag, a NOT_READY one is counted, each ends the failures in a
row, with a HEAD notice for a head that was ABSENT and for a lamp flag that changes (R120), and the next head is
polled or the cycle ends (R119 to R124); a gap discards what was received. That 0xE8 begins an answer afresh
wherever it comes, the eleventh byte included, is deduced, and that the notice of the condition comes before that
of the lamp is the model's choice (log entry 17). -/
def Obligations.HeadBytesAssemble : Prop :=
  ∀ (b : Byte) (s : State),
    let put := fun u => (.next (pump { s with shu := u }) : Host.Outcome State Fault Refusal)
    let bs := s.shu.answer ++ [b]
    let whole := bs.length = 11
    let check := (bs.tail.map BitVec.toNat).sum % 256 = 255
    let status := byteAt bs 3
    let up := fun n : Nat => min (n + 1) 65535
    let out := exec (.headByteReceived b) s
    (b = 0xE8 → out = put { s.shu with answer := [0xE8] }) ∧
    (b ≠ 0xE8 → s.shu.answer = [] → out = .next (pump s)) ∧
    (b ≠ 0xE8 → s.shu.answer ≠ [] → bs.length < 11 → out = put { s.shu with answer := bs }) ∧
    (b ≠ 0xE8 → whole → ¬ check ∨ 2 < status.toNat → out = put { s.shu with
      answer := [], counts := { s.shu.counts with bad := up s.shu.counts.bad } }) ∧
    (b ≠ 0xE8 → whole → check → status.toNat ≤ 2 →
      (s.shu.timer.live = false ∨ s.shu.cycle = none ∨ ∃ c, s.shu.cycle = some c ∧
        (c.inFlight = none ∨ c.seq ≠ byteAt bs 2 ∨
          ∃ h, c.inFlight = some h ∧ (byteAt bs 1).toNat ≠ h.val + 1)) →
      out = put { s.shu with
        answer := [], counts := { s.shu.counts with stale := up s.shu.counts.stale } }) ∧
    (∀ c h, b ≠ 0xE8 → whole → check → status.toNat ≤ 2 → s.shu.timer.live = true → s.shu.cycle = some c →
      c.inFlight = some h → (byteAt bs 1).toNat = h.val + 1 → byteAt bs 2 = c.seq →
      let old := { s.shu.heads[h] with failures := 0, absent := false }
      let head := if status = 0 then
          { old with lamp := false, counts := { old.counts with ok := up old.counts.ok } }
        else if status = 1 then
          { old with lamp := true, counts := { old.counts with lamp := up old.counts.lamp } }
        else { old with counts := { old.counts with notReady := up old.counts.notReady } }
      let answers := if status = 0 then
          c.answers ++ [calibrate s.act.heads[h] (fromLe [byteAt bs 4, byteAt bs 5])
            (fromLeInt [byteAt bs 6, byteAt bs 7]) (fromLeInt [byteAt bs 8, byteAt bs 9])]
        else c.answers
      let kept := { s with shu := { s.shu with
        answer := [], heads := s.shu.heads.set h head
        timer := { s.shu.timer with current := 0, running := false, due := false } } }
      let restored := if s.shu.heads[h].absent = true then raise (.head h .restored c.seq s.epu.d.pos) kept else kept
      let told := if head.lamp = s.shu.heads[h].lamp then restored
        else raise (.head h (if head.lamp then .lampOn else .lampOff) c.seq s.epu.d.pos) restored
      (∀ k rest, c.todo = k :: rest →
        let x := told.shu.heads[k]
        out = .next (pump { told with shu := { told.shu with
          cycle := some { c with todo := rest, inFlight := some k, answers }
          sending := s.shu.sending ++ [⟨k, c.seq⟩]
          heads := told.shu.heads.set k { x with counts := { x.counts with polls := up x.counts.polls } } } })) ∧
      (c.todo = [] → ∃ t, out = .next (pump t) ∧ CycleEnded c answers s.shu.counts told t ∧
        t = { told with
          shu := { told.shu with cycle := none, counts := t.shu.counts }, rst := t.rst, link := t.link })) ∧
    exec .headAnswerGap s = put { s.shu with answer := [] }

/-- A calibrated answer and a sample: a value beyond its range is taken at the limit it is beyond and marks the
answer CLAMPED (R122); each value of a sample is the mean of its answers, so that it lies between the least and
the greatest of them, its side spread is the difference of the extreme lightnesses, and its flags say what R122
and R123 say. A mean is the sum divided by the number, and a division is rounded to nearest with halves away from
zero (R1). -/
def Obligations.ShadeSampleStaysInRange : Prop :=
  (∀ n d : Int, 0 < d →
    let q := roundDiv n d
    2 * (n - q * d).natAbs ≤ d.natAbs ∧ (2 * (n - q * d).natAbs = d.natAbs → n.natAbs < (q * d).natAbs)) ∧
  (∀ xs : List Int, mean xs = roundDiv xs.sum xs.length) ∧
  (∀ (h : HeadSettings) (l a b : Int),
    let r := calibrate h l a b
    let l' := roundDiv (l * h.gain) 4096 + h.offL
    let a' := roundDiv (a * h.gain) 4096 + h.offA
    let b' := roundDiv (b * h.gain) 4096 + h.offB
    let limited := fun lo hi x : Int => if x < lo then lo else if hi < x then hi else x
    0 ≤ r.l ∧ r.l ≤ 10000 ∧ r.a.natAbs ≤ 12700 ∧ r.b.natAbs ≤ 12700 ∧
    r.l = limited 0 10000 l' ∧ r.a = limited (-12700) 12700 a' ∧ r.b = limited (-12700) 12700 b' ∧
    (r.clamped = false ↔ r.l = l' ∧ r.a = a' ∧ r.b = b')) ∧
  ∀ (tolerance : Nat) (r : Reading) (rs : List Reading),
    let x := combine tolerance (r :: rs)
    x.l = roundDiv ((r :: rs).map (·.l)).sum (rs.length + 1) ∧
    x.a = roundDiv ((r :: rs).map (·.a)).sum (rs.length + 1) ∧
    x.b = roundDiv ((r :: rs).map (·.b)).sum (rs.length + 1) ∧
    (∀ lo hi, (∀ y ∈ r :: rs, lo ≤ y.l ∧ y.l ≤ hi) → lo ≤ x.l ∧ x.l ≤ hi ∧ x.spread ≤ hi - lo) ∧
    (∀ lo hi, (∀ y ∈ r :: rs, lo ≤ y.a ∧ y.a ≤ hi) → lo ≤ x.a ∧ x.a ≤ hi) ∧
    (∀ lo hi, (∀ y ∈ r :: rs, lo ≤ y.b ∧ y.b ≤ hi) → lo ≤ x.b ∧ x.b ≤ hi) ∧
    x.heads = rs.length + 1 ∧ (∀ y ∈ r :: rs, ∀ z ∈ r :: rs, y.l - z.l ≤ x.spread) ∧
    (∃ y ∈ r :: rs, ∃ z ∈ r :: rs, y.l - z.l = x.spread) ∧
    (x.side = true ↔ (tolerance : Int) < x.spread) ∧ (x.clamped = true ↔ ∃ y ∈ r :: rs, y.clamped = true)

/-! ### Rolls -/

/-- What the Winder Controller takes a record for, and where a start cut is armed, deferred and fired. The things that
are due are done one after another (log entry 12) until none is, the model ending an event that calls for more than
2^40 (log entry 30). A record DOWNSTREAM has its cut-start position from its key_D (R131); the oldest record not yet
taken is taken when D has passed that position: to waste in THREADING, into the winding roll in WINDING, and with a
cut armed or fired by the side of the cut that it lies on and by what follows the cut (R132). In KNIFE and INDEXING
nothing else is due, and nothing at all in IDLE (R132). In THREADING the oldest record not yet taken is the start
record unless it carries SPLICE, which passes it over as soon as it is made, and its START cut is armed at its cut
start less the lead (R133, R136, R140); due, it fires into a roll when a slot is allocatable, and is deferred
otherwise (R133, R143). A splice cut-out names the record 1 + extra waste records after the splice record, counted
again from a later SPLICE on the way (R140). While a START cut is armed and not due, or the start record is not
DOWNSTREAM or not made yet, records are taken as D passes them (R132, R133). In a job that is draining, with no record
left that can be the start record, one that a cut-out names and the store will not hold included, THREADING ends once
no record is due and D has passed the last record's cut start and its L_D or the mean repeat: the waste run is freed
and the winder is IDLE with the gate open (R147). The mean repeat is the mean of a length history of 8 values, and the
nominal repeat before it is full (R131). That the records not yet taken before the start record go to waste, in index
order, when its cut fires or is given up, is deduced (log entry 34); that an empty store ends THREADING at once (log
entry 23), and that the start deferral count stops at 255 and is what the STOP notice of a start deferral carries as
its extra repeats (log entry 25), is the model's choice; that past the closing record of a FORCED cut with both SPLICE
and JOB_MARK records are wasted, as past one with SPLICE alone, is deduced (log entry 22). -/
def Obligations.WinderTakesRecords : Prop :=
  ∀ s : State,
    let w := s.wnc
    let taken := fun x : Record => x.wnd ≠ none ∨ x.index ∈ w.held
    let pushed := fun r : Record => match r.emb.bind (·.lD) with
      | none => w.lengths
      | some x => (if 8 ≤ w.lengths.length then w.lengths.drop 1 else w.lengths) ++ [x]
    let rest := fun r : Record => w.cutStarts.filter fun c => c.index != r.index
    let writes := fun (r : Record) (wnd : Wnd) => { s.rst with
      records := s.rst.records.map fun x => if x.index = r.index then
        { x with stage := if x.stage = .closed then .closed else .assigned, wnd := some wnd } else x }
    let wasted := fun (r : Record) (p : Pos) => { s with
      rst := writes r ⟨.waste, p⟩
      wnc := { w with
        lengths := pushed r, cutStarts := rest r
        waste := some ((w.waste.map (·.1)).getD r.index, r.index) } }
    let wound := fun (i : Fin 12) (ph : SlotPhase) (roll : Roll) (r : Record) (p : Pos) => { s with
      rst := writes r ⟨.roll i roll.number (roll.count + 1), p⟩
      wnc := { w with
        slots := w.slots.set i (.used ph { roll with count := roll.count + 1 })
        lengths := pushed r, cutStarts := rest r
        design := if r.jobMark = true ∧ r.index ≠ roll.firstIndex then r.design.getD w.design else w.design } }
    let held := fun r : Record => { s with wnc := { w with held := w.held ++ [r.index] } }
    let freed := fun y : State => match y.wnc.waste with
      | none => y.rst
      | some (first, last) => { y.rst with
          records := freeWhere (fun x => first ≤ x.index && x.index ≤ last && x.isWaste) y.rst.records }
    let armed := fun (kind : CutKind) (closing : Option Nat) (p : Pos) =>
      some { kind, closing, cutPos := p, firePos := posShift p (-s.lead) : ArmedCut }
    (∀ r : Record, s.cutStart r = match w.cutStarts.find? (fun c => c.index == r.index) with
      | some c => some c.pos
      | none => r.wnd.map (·.cutStart)) ∧
    s.lead = (if s.epu.d.speed ≤ 0 then 0 else roundDiv (s.epu.d.speed * s.act.winder.knifeTime) 100) ∧
    s.meanRepeat = (if 8 ≤ w.lengths.length then roundDiv w.lengths.sum w.lengths.length
      else s.act.track.nominalRepeat) ∧
    (∀ (f : Nat → State) (k : Nat), k ≤ 2 ^ 40 → f 0 = s → (∀ n, n < k → wncStep (f n) = some (f (n + 1))) →
      wncStep (f k) = none → wncSettle s = f k) ∧
    (∀ i keyD, wncDownstream i keyD s = wncSettle { s with wnc := { w with cutStarts := w.cutStarts ++
      [⟨i, posShift (BitVec.ofNat 40 ((keyD.toNat + 1) / 2))
        (s.act.winder.knifeDistance + s.act.winder.matchOffset)⟩] } }) ∧
    (∀ xs r ys p, s.rst.records = xs ++ r :: ys → (∀ x ∈ xs, taken x) → ¬ taken r → s.cutStart r = some p →
      takeNext s = if 0 < posDiff s.epu.d.pos p then some (takeRecord r s) else none) ∧
    ((∀ x ∈ s.rst.records, taken x) → takeNext s = none) ∧
    (∀ r p, s.rst.records.find? (fun x => x.index == r.index) = some r → r.stage ≠ .closed →
      s.cutStart r = some p →
      takeToWaste r s = wasted r p ∧ (w.state = .threading → takeRecord r s = wasted r p) ∧
      (∀ i ph roll, w.slots[i] = .used ph roll → takeIntoRoll i r s = wound i ph roll r p) ∧
      (∀ i ph roll, w.winding = some i → w.slots[i] = .used ph roll →
        (w.state = .winding → takeRecord r s = wound i ph roll r p) ∧
        ∀ a, w.state = .cutArmed → w.armed = some a →
          let before := match a.closing with
            | some c => r.index < c
            | none => posDiff p a.cutPos < 0
          let splice := ∃ c x, a.closing = some c ∧ s.rst.records.find? (fun x => x.index == c) = some x ∧
            x.splice ≠ none
          (before → takeRecord r s = wound i ph roll r p) ∧
          (¬ before → a.kind = .target ∨ (a.kind = .forced ∧ ¬ splice) → takeRecord r s = held r) ∧
          (¬ before → a.kind = .length ∨ a.kind = .final ∨ (a.kind = .forced ∧ splice) →
            takeRecord r s = wasted r p)) ∧
      (∀ f, w.state = .knife ∨ w.state = .indexing → w.follows = some f →
        (f.what = .roll → takeRecord r s = held r) ∧ (f.what ≠ .roll → takeRecord r s = wasted r p))) ∧
    (∀ (c : Nat) (x : State), wasteBefore c [] x = x ∧ ∀ r rs,
      let due := r.wnd = none ∧ r.index ∉ x.wnc.held ∧ r.index < c
      (due → wasteBefore c (r :: rs) x = wasteBefore c rs (takeToWaste r x)) ∧
      (¬ due → wasteBefore c (r :: rs) x = wasteBefore c rs x)) ∧
    (w.state = .idle → wncStep s = none) ∧
    (w.state = .knife ∨ w.state = .indexing → wncStep s = takeNext s) ∧
    (w.state = .threading → w.armed = none →
      ∀ j xs r ys, w.start = .from_ j → s.rst.records = xs ++ r :: ys →
        (∀ x ∈ xs, x.index < j ∨ taken x) → j ≤ r.index → ¬ taken r →
        (r.splice ≠ none →
          wncStep s = some { s with wnc := { w with start := .cutOut r.index s.act.winder.extraWaste } }) ∧
        ∀ p, r.splice = none → s.cutStart r = some p →
          (¬ 0 < posDiff s.epu.d.pos p →
            wncStep s = some { s with wnc := { w with armed := armed .start (some r.index) p } }) ∧
          (0 < posDiff s.epu.d.pos p →
            wncStep s = some (deferStart r.index (wasteBefore (r.index + 1) s.rst.records s)))) ∧
    (∀ j, w.state = .threading → w.start = .from_ j →
      ((∀ x ∈ s.rst.records, x.index < j ∨ taken x) → nameStart s = s) ∧
      ∀ xs r ys, s.rst.records = xs ++ r :: ys → (∀ x ∈ xs, x.index < j ∨ taken x) → j ≤ r.index → ¬ taken r →
        (r.splice = none → nameStart s = s) ∧
        (r.splice ≠ none →
          nameStart s = { s with wnc := { w with start := .cutOut r.index s.act.winder.extraWaste } })) ∧
    (w.state ≠ .threading ∨ w.start = .none ∨ (∃ k n, w.start = .cutOut k n) → nameStart s = s) ∧
    (∀ k n i, w.state = .threading → w.armed = none → w.start = .cutOut k n →
      cutOutTarget n n (s.rst.records.dropWhile fun x => x.index < k) = some i →
      wncStep s = some { s with wnc := { w with start := .from_ i } }) ∧
    (∀ (n left : Nat) (r : Record) (rs : List Record), cutOutTarget n left [] = none ∧
      (r.splice ≠ none → cutOutTarget n left (r :: rs) = cutOutTarget n n rs) ∧
      (r.splice = none → cutOutTarget n 0 (r :: rs) = some r.index ∧
        cutOutTarget n (left + 1) (r :: rs) = cutOutTarget n left rs)) ∧
    (∀ (n : Nat) (x y : Record) (xs ys : List Record), x.splice ≠ none → xs.length = n →
      (∀ z ∈ xs ++ [y], z.splice = none) →
      cutOutTarget n n (x :: xs ++ y :: ys) = some y.index ∧
      ∀ (v : Record) (us : List Record), v.splice ≠ none → us.length ≤ n →
        cutOutTarget n n (v :: us ++ (x :: xs ++ y :: ys)) = some y.index) ∧
    (w.stopOn = false → clearStop s = s) ∧
    (w.stopOn = true → clearStop s = raise .stopOff { s with wnc := { w with stopOn := false } }) ∧
    (∀ c : Nat,
      let n := min (w.startDeferral + 1) 255
      let t := { s with wnc := { w with
        armed := none, start := .from_ (c + 1), startDeferral := n
        counts := { w.counts with startDeferrals := min (w.counts.startDeferrals + 1) 65535 } } }
      (n ≤ s.act.winder.maxOverlength ∨ w.stopOn = true → deferStart c s = t) ∧
      (s.act.winder.maxOverlength < n → w.stopOn = false →
        deferStart c s = raise (.stopOn none n) { t with wnc := { t.wnc with stopOn := true } })) ∧
    (w.state = .threading → w.armed = none →
      let waits := ∃ j xs r ys, w.start = .from_ j ∧ s.rst.records = xs ++ r :: ys ∧
        (∀ x ∈ xs, x.index < j ∨ taken x) ∧ j ≤ r.index ∧ ¬ taken r ∧ r.splice = none ∧ s.cutStart r = none
      let lacks := w.start = .none ∨ (∃ j, w.start = .from_ j ∧ ∀ x ∈ s.rst.records, x.index < j ∨ taken x) ∨
        ∃ k n, w.start = .cutOut k n ∧ cutOutTarget n n (s.rst.records.dropWhile fun x => x.index < k) = none
      let ended := clearStop { s with
        rst := freed s
        wnc := { w with state := .idle, gateOpen := true, start := .none, armed := none, waste := none } }
      (waits ∨ lacks → ∀ t, takeNext s = some t → wncStep s = some t) ∧
      (takeNext s = none → waits ∨ (lacks ∧ s.job.state ≠ .draining) → wncStep s = none) ∧
      (takeNext s = none → lacks → s.job.state = .draining →
        (s.rst.records = [] → wncStep s = some ended) ∧
        ∀ xs r, s.rst.records = xs ++ [r] →
          (s.cutStart r = none → wncStep s = none) ∧
          ∀ p, s.cutStart r = some p → wncStep s =
            if 0 < posDiff s.epu.d.pos (posShift p ((r.emb.bind (·.lD)).getD s.meanRepeat)) then some ended
            else none)) ∧
    ∀ a, w.state = .threading → w.armed = some a →
      (¬ 0 < posDiff s.epu.d.pos a.firePos → wncStep s = takeNext s) ∧
      ∀ c, a.closing = some c →
        (0 < posDiff s.epu.d.pos a.firePos → wncStep s = some (startDue a s)) ∧
        (NoneAllocatable s → startDue a s = deferStart c s) ∧
        ∀ i, Allocates s i →
          let u := wasteBefore c s.rst.records { s with wnc := { w with
            knife := w.knife.start s.act.winder.knifeTime, knifeOn := true, gateOpen := false } }
          startDue a s = clearStop (startRoll c a.cutPos .pattern { u with
            rst := freed u
            wnc := { u.wnc with
              waste := none, startDeferral := 0
              counts := { w.counts with startCuts := min (w.counts.startCuts + 1) 65535 } } })

/-- The cuts of the winding roll. In WINDING the closing record, the first after the roll's first that carries SPLICE
or JOB_MARK or that the target reaches, or after a deferral the next record, arms its cut once it has a cut start,
and until then records are taken as D passes them (R132, R135, R136, R142). A cut due with a slot still in CUT, or
with no slot for a roll to follow, is deferred: the roll is overlength, and past the maximum a stop is requested
(R142, R143). Otherwise the knife fires: a stop requested is cleared (R143), the records before the cut not yet taken
are taken into the roll, the records of the roll are CLOSED and counted, its length, SHORT and shade taken, its slot
goes to CUT or, for a FORCED or FINAL cut below the minimum roll, to FREE with its records freed, and what follows is
decided (R137, R138, R140, R154). A LENGTH cut gives way to a closing record whose cut start lies before it, and
stays for one whose cut start lies at or beyond it or is not known yet (R144). At LOST the winding roll, or the one
that is to follow a cut, goes to LENGTH mode, whose cut stands at its start plus its target length (R144). A roll
without a closing record in a job that is draining gets the FINAL cut at the last record's cut start plus its L_D, or
plus the mean repeat (R147). That a cut is replaced before it is fired, be it due, is the model's choice (log entry
12); that a closing record with both SPLICE and JOB_MARK is followed by waste (log entry 22), that a FORCED cut
deferred in LENGTH mode moves to the next record, that the record which becomes closing when a roll's start passes
its closing record replaces a LENGTH cut too, that the FINAL cut waits for the newest record and replaces a LENGTH
cut (log entry 23), and that a LENGTH cut keeps the target length of the roll's start (log entry 24), are deduced. -/
def Obligations.CutsAreArmedFiredAndDeferred : Prop :=
  (∀ s : State, s.meanRepeat = if 8 ≤ s.wnc.lengths.length then
    roundDiv s.wnc.lengths.sum s.wnc.lengths.length else s.act.track.nominalRepeat) ∧
  (∀ samples : List Shd,
    (samples.length < 3 → rollShade samples = none) ∧
    (3 ≤ samples.length → ∃ x, rollShade samples = some x ∧ x.l = mean (samples.map (·.l)) ∧
      x.a = mean (samples.map (·.a)) ∧ x.b = mean (samples.map (·.b)) ∧
      (∀ y ∈ samples, deltaE y.l y.a y.b x.l x.a x.b ≤ x.spread) ∧
      ∃ y ∈ samples, deltaE y.l y.a y.b x.l x.a x.b = x.spread)) ∧
  (∀ (i : Fin 12) (a : ArmedCut) (s : State), takeBefore i a [] s = s ∧ ∀ r rs,
    let untaken := r.wnd = none ∧ r.index ∉ s.wnc.held
    let before := match a.closing with
      | some c => r.index < c
      | none => ∃ p, s.cutStart r = some p ∧ posDiff p a.cutPos < 0
    (untaken ∧ before → takeBefore i a (r :: rs) s = takeBefore i a rs (takeIntoRoll i r s)) ∧
    (¬ (untaken ∧ before) → takeBefore i a (r :: rs) s = takeBefore i a rs s)) ∧
  (∀ (f : Following) (s : State), s.wnc.state = .knife ∨ s.wnc.state = .indexing → s.wnc.follows = some f →
    (f.what = .roll → f.lengthMode = false → wncLost s = { s with wnc := { s.wnc with
      follows := some { f with lengthMode := true }
      counts := { s.wnc.counts with lengthRolls := min (s.wnc.counts.lengthRolls + 1) 65535 } } }) ∧
    (f.what ≠ .roll ∨ f.lengthMode = true → wncLost s = s)) ∧
  ∀ (i : Fin 12) (ph : SlotPhase) (roll : Roll) (s : State),
    let w := s.wnc
    let up := fun n : Nat => min (n + 1) 65535
    w.winding = some i → w.slots[i] = .used ph roll →
    let armed := fun (kind : CutKind) (closing : Option Nat) (p : Pos) =>
      some { kind, closing, cutPos := p, firePos := posShift p (-s.lead) : ArmedCut }
    let forces := fun x : Record => x.splice ≠ none ∨ x.jobMark = true
    let lengthPos := posShift roll.start w.rollTarget
    (w.state = .winding → w.armed = none →
      let closedBy := fun c : Record =>
        (s.cutStart c = none → wncStep s = takeNext s) ∧
        ∀ p, s.cutStart c = some p →
          (forces c → wncStep s = some { s with wnc := { w with
            state := .cutArmed, armed := armed .forced (some c.index) p } }) ∧
          (¬ forces c → wncStep s = some { s with wnc := { w with
            state := .cutArmed, armed := armed .target (some c.index) p } })
      (∀ xs f ys m c j, w.close = .seek j → s.rst.records = xs ++ f :: ys → f.index = roll.firstIndex →
        (∀ x ∈ xs, x.index ≠ roll.firstIndex) →
        let closes := fun (k : Nat) (x : Record) => j ≤ x.index ∧
          (forces x ∨ (roll.mode = .pattern ∧ k + 1 = roll.target))
        ys[m]? = some c → closes m c → (∀ k x, k < m → ys[k]? = some x → ¬ closes k x) → closedBy c) ∧
      (∀ xs c ys j, w.close = .next j → s.rst.records = xs ++ c :: ys → (∀ x ∈ xs, x.index < j) →
        j ≤ c.index → closedBy c)) ∧
    (let noneCloses :=
        (∃ j, w.close = .next j ∧ ∀ x ∈ s.rst.records, x.index < j) ∨
        (∃ j, w.close = .seek j ∧ ∀ x ∈ s.rst.records, x.index ≠ roll.firstIndex) ∨
        ∃ xs f ys j, w.close = .seek j ∧ s.rst.records = xs ++ f :: ys ∧ f.index = roll.firstIndex ∧
          (∀ x ∈ xs, x.index ≠ roll.firstIndex) ∧ ∀ k x, ys[k]? = some x → ¬ (j ≤ x.index ∧
            (forces x ∨ (roll.mode = .pattern ∧ k + 1 = roll.target)))
      let unarmed := w.state = .winding ∧ w.armed = none
      let length := w.state = .cutArmed ∧ ∃ a, w.armed = some a ∧ a.kind = .length
      let unplaced := s.rst.records = [] ∨ ∃ xs r, s.rst.records = xs ++ [r] ∧ s.cutStart r = none
      noneCloses → unarmed ∨ length →
        (∀ xs r p, s.job.state = .draining → s.rst.records = xs ++ [r] → s.cutStart r = some p →
          wncStep s = some { s with wnc := { w with
            state := .cutArmed
            armed := armed .final none (posShift p ((r.emb.bind (·.lD)).getD s.meanRepeat)) } }) ∧
        (unarmed → s.job.state ≠ .draining ∨ unplaced → wncStep s = takeNext s) ∧
        ∀ a, w.armed = some a → s.job.state ≠ .draining ∨ unplaced →
          wncStep s = if 0 < posDiff s.epu.d.pos a.firePos then some (cutDue a s) else takeNext s) ∧
    (∀ a xs f ys zs c j, w.state = .cutArmed → w.armed = some a → a.kind = .length → roll.mode = .length →
      w.close = .seek j → s.rst.records = xs ++ f :: ys ++ c :: zs → f.index = roll.firstIndex →
      (∀ x ∈ xs, x.index ≠ roll.firstIndex) → (∀ x ∈ ys, x.index < j ∨ ¬ forces x) → j ≤ c.index → forces c →
      (∀ p, s.cutStart c = some p → posDiff p a.cutPos < 0 →
        wncStep s = some { s with wnc := { w with armed := armed .forced (some c.index) p } }) ∧
      ((∀ p, s.cutStart c = some p → 0 ≤ posDiff p a.cutPos) →
        wncStep s = if 0 < posDiff s.epu.d.pos a.firePos then some (cutDue a s) else takeNext s)) ∧
    (∀ a xs c zs j, w.state = .cutArmed → w.armed = some a → a.kind = .length → w.close = .next j →
      s.rst.records = xs ++ c :: zs → (∀ x ∈ xs, x.index < j) → j ≤ c.index →
      (∀ p, s.cutStart c = some p → posDiff p a.cutPos < 0 →
        (forces c → wncStep s = some { s with wnc := { w with armed := armed .forced (some c.index) p } }) ∧
        (¬ forces c → wncStep s = some { s with wnc := { w with armed := armed .target (some c.index) p } })) ∧
      ((∀ p, s.cutStart c = some p → 0 ≤ posDiff p a.cutPos) →
        wncStep s = if 0 < posDiff s.epu.d.pos a.firePos then some (cutDue a s) else takeNext s)) ∧
    (∀ a, w.state = .cutArmed → w.armed = some a → a.kind ≠ .length →
      wncStep s = if 0 < posDiff s.epu.d.pos a.firePos then some (cutDue a s) else takeNext s) ∧
    (∀ a : ArmedCut,
      let closing : Option Record := a.closing.bind fun c => s.rst.records.find? fun x => x.index == c
      let what : Follows := match a.kind with
        | .target | .start => Follows.roll
        | .forced => if closing.any (fun x : Record => x.splice.isSome) then Follows.waste else Follows.roll
        | .length => .waste
        | .final => .end_
      let inCut := ∃ (j : Fin 12) (r : Roll), w.slots[j] = .used .cut r
      let extra := min (roll.extra + 1) 255
      let slots := w.slots.set i (.used ph { roll with overlength := true, extra })
      let counts := { w.counts with deferrals := up w.counts.deferrals }
      let stops := decide (s.act.winder.maxOverlength < extra) && !w.stopOn
      let asked := fun t : State => if stops then
        raise (.stopOn (some roll.number) extra) { t with wnc := { t.wnc with stopOn := true } } else t
      (inCut ∨ (what = .roll ∧ NoneAllocatable s) →
        (∀ c, a.closing = some c → cutDue a s = asked { s with wnc := { w with
          slots, counts, state := .winding, armed := none, close := .next (c + 1) } }) ∧
        (a.closing = none →
          let p := posShift a.cutPos s.meanRepeat
          cutDue a s = asked { s with wnc := { w with
            slots, counts, state := .cutArmed, armed := armed a.kind none p } })) ∧
      (¬ inCut → what ≠ .roll ∨ (∃ j, Allocates s j) →
        let u := takeBefore i a s.rst.records { s with wnc := { w with
          knife := w.knife.start s.act.winder.knifeTime, knifeOn := true } }
        let cleared := fun t : State =>
          if w.stopOn then raise .stopOff { t with wnc := { t.wnc with stopOn := false } } else t
        let mine := fun x : Record => x.inRoll i roll.number
        let cutWnc := { u.wnc with
          state := .knife, winding := none, armed := none, gateOpen := what != Follows.roll
          follows := some { what, first := a.closing.getD 0, cutPos := a.cutPos, lengthMode := false
                            thread := match closing with
                              | some x => if a.kind = CutKind.forced ∧ x.splice ≠ none then
                                  .cutOut x.index s.act.winder.extraWaste else .from_ 0
                              | none => .from_ 0 } }
        let n := (u.rst.records.filter mine).length
        let samples := (u.rst.records.filter mine).filterMap (·.shd)
        let length := posDiff a.cutPos roll.start
        let short := decide (n < roll.target)
        ∃ k : Nat, u.wnc.slots = w.slots.set i (.used ph { roll with count := k }) ∧
          let small := (a.kind = .forced ∨ a.kind = .final) ∧ k < s.act.winder.minRoll
          (small → cutDue a s = cleared (raise (.rollWasted roll.number i n .minRoll) { u with
            rst := { u.rst with records := freeWhere mine u.rst.records }
            wnc := { cutWnc with
              slots := w.slots.set i .free, counts := { w.counts with wasted := up w.counts.wasted } } })) ∧
          (¬ small → cutDue a s = cleared
            (raise (.rollCut i roll.number n length roll.mode short roll.overlength roll.trackLost roll.extra)
              { u with
                rst := { u.rst with
                  records := u.rst.records.map fun x => if mine x then { x with stage := .closed } else x }
                wnc := { cutWnc with
                  slots := w.slots.set i (.used .cut { roll with
                    count := n, length := some length, short
                    samples := samples.length, shade := rollShade samples })
                  counts := { w.counts with
                    cut := up w.counts.cut
                    short := if short then up w.counts.short else w.counts.short } } })))) ∧
    (w.state = .winding ∨ w.state = .cutArmed → roll.mode = .length → wncLost s = s) ∧
    (w.state = .winding ∨ w.state = .cutArmed → roll.mode = .pattern →
      let keeps := ∃ a, w.armed = some a ∧ a.kind = .forced ∧ posDiff a.cutPos lengthPos < 0
      let lost := { w with
        slots := w.slots.set i (.used ph { roll with mode := .length, trackLost := true })
        counts := { w.counts with lengthRolls := up w.counts.lengthRolls }
        close := match w.close with
          | .next k => .seek k
          | .seek k => .seek k }
      (keeps → wncLost s = wncSettle { s with wnc := lost }) ∧
      (¬ keeps → wncLost s = wncSettle { s with wnc := { lost with
        state := .cutArmed, armed := armed .length none lengthPos } }))

/-- The knife timer's expiry turns the knife off and in KNIFE the turret indexes; the turret timer's expiry in
INDEXING is followed by what the cut left: threading, the next roll, or the end of the job (R133, R134,
R139, R147). A roll starts in the slot allocatable, with its number, its target, its mode and the design in
force, takes the records held for it one after another, each into the roll with its WND group, its repeat count and
its L_D in the length history (R131, R132), and raises ROLL_START; a LENGTH roll arms its cut at its start plus its
target length; a closing record already taken is a deferral by the records taken from it on, and the first record
not yet taken becomes the closing record, in LENGTH mode too by deduction (log entry 23); what is due at that
position follows (R134, R135, R142 to R144). At the end of a job a stop request that was set is cleared (R143), and
a drained job ends (R7, R106, R160, R177; its notices in the order of log entry 13). That such a deferral raises the
deferral count by as many as the boundaries gone by (log entry 23), and that an expiry with the timer not run out
changes nothing (log entry 1), is the model's choice. -/
def Obligations.KnifeAndTurretExpire : Prop :=
  (∀ s : State, s.meanRepeat = if 8 ≤ s.wnc.lengths.length then
    roundDiv s.wnc.lengths.sum s.wnc.lengths.length else s.act.track.nominalRepeat) ∧
  (∀ (i : Fin 12) (s : State), takeHeld i [] s = s ∧ ∀ h hs,
    (s.rst.records.find? (fun x => x.index == h) = none → takeHeld i (h :: hs) s = takeHeld i hs s) ∧
    ∀ r, s.rst.records.find? (fun x => x.index == h) = some r →
      takeHeld i (h :: hs) s = takeHeld i hs (takeIntoRoll i r s)) ∧
  (∀ (i : Fin 12) (ph : SlotPhase) (roll : Roll) (r : Record) (p : Pos) (s : State),
    let w := s.wnc
    w.slots[i] = .used ph roll → s.rst.records.find? (fun x => x.index == r.index) = some r → r.stage ≠ .closed →
    s.cutStart r = some p →
    takeIntoRoll i r s = { s with
      rst := { s.rst with records := s.rst.records.map fun x => if x.index = r.index then
        { x with
          stage := if x.stage = .closed then .closed else .assigned
          wnd := some ⟨.roll i roll.number (roll.count + 1), p⟩ } else x }
      wnc := { w with
        slots := w.slots.set i (.used ph { roll with count := roll.count + 1 })
        lengths := match r.emb.bind (·.lD) with
          | none => w.lengths
          | some x => (if 8 ≤ w.lengths.length then w.lengths.drop 1 else w.lengths) ++ [x]
        cutStarts := w.cutStarts.filter fun c => c.index != r.index
        design := if r.jobMark = true ∧ r.index ≠ roll.firstIndex then r.design.getD w.design else w.design } }) ∧
  (∀ (roll : Roll) (s : State),
    (∀ j, s.wnc.close = .next j → s.closingOf roll = s.rst.records.find? fun x => decide (j ≤ x.index)) ∧
    (∀ j, s.wnc.close = .seek j → s.closingOf roll = ((s.rst.after roll.firstIndex).find? fun q =>
      decide (j ≤ q.2.index) && (q.2.splice.isSome || q.2.jobMark || (roll.mode == .pattern && q.1 == roll.target))).map
        (·.2)) ∧
    ∀ xs f ys, s.rst.records = xs ++ f :: ys → (∀ x ∈ xs, x.index ≠ f.index) →
      s.rst.after f.index = ys.zipIdx.map fun q => (q.2 + 1, q.1)) ∧
  (∀ (first : Nat) (start : Pos) (mode : RollMode) (i : Fin 12) (s : State), Allocates s i →
    let w := s.wnc
    let n := max 1 (min 150 (ceilDiv s.act.winder.targetLength s.meanRepeat.toNat))
    let design := match s.rst.records.find? (fun x => x.index == first) with
      | some r => if r.jobMark then r.design.getD w.design else w.design
      | none => w.design
    let opened := { s with wnc := { w with
      slots := w.slots.set i (.used .winding
        { number := w.nextRoll, firstIndex := first, count := 0, target := n, mode, start, length := none
          matchOffset := s.act.winder.matchOffset, design, short := false, overlength := false, extra := 0
          trackLost := mode == .length, defects := .zero, shade := none, samples := 0, grade := none
          batch := none, label := .none })
      state := .winding, winding := some i, armed := none, close := .seek (first + 1), follows := none
      held := [], start := .none, design, rollTarget := s.act.winder.targetLength, nextRoll := w.nextRoll + 1 } }
    let p := posShift start s.act.winder.targetLength
    let t := passHeldClosing i
      (raise (.rollStart i w.nextRoll first n mode design start) (takeHeld i w.held opened))
    let isHeld := fun x : Record => x.wnd ≠ none ∨ x.index ∈ w.held
    (mode = .pattern → startRoll first start mode s = t) ∧
    (mode = .length → startRoll first start mode s = { t with wnc := { t.wnc with
      state := .cutArmed, armed := some ⟨.length, none, p, posShift p (-s.lead)⟩ } }) ∧
    ((∀ k x, (k, x) ∈ s.rst.after first → isHeld x →
        x.splice = none ∧ x.jobMark = false ∧ ¬ (mode = .pattern ∧ k = n)) →
      t = raise (.rollStart i w.nextRoll first n mode design start) (takeHeld i w.held opened))) ∧
  (∀ (i : Fin 12) (ph : SlotPhase) (roll : Roll) (s : State), s.wnc.slots[i] = .used ph roll →
    let w := s.wnc
    let taken := fun x : Record => x.wnd ≠ none ∨ x.index ∈ w.held
    (s.closingOf roll = none → passHeldClosing i s = s) ∧
    ∀ c, s.closingOf roll = some c →
      let n := s.rst.records.countP fun x => decide (c.index ≤ x.index) && (x.wnd.isSome || w.held.contains x.index)
      let extra := min (roll.extra + n) 255
      let passed := fun j : Nat =>
        let u := { s with wnc := { w with
          slots := w.slots.set i (.used ph { roll with overlength := true, extra })
          counts := { w.counts with deferrals := min (w.counts.deferrals + n) 65535 }
          close := .next j } }
        if s.act.winder.maxOverlength < extra ∧ w.stopOn = false then
          raise (.stopOn (some roll.number) extra) { u with wnc := { u.wnc with stopOn := true } }
        else u
      (¬ taken c → passHeldClosing i s = s) ∧
      (taken c → ∀ xs r ys, s.rst.records = xs ++ r :: ys → (∀ x ∈ xs, x.index < c.index ∨ taken x) →
        c.index ≤ r.index → ¬ taken r → passHeldClosing i s = passed r.index) ∧
      (taken c → ∀ xs r, s.rst.records = xs ++ [r] → (∀ x ∈ xs ++ [r], x.index < c.index ∨ taken x) →
        passHeldClosing i s = passed (r.index + 1))) ∧
  ∀ s : State,
    let off := fun t : Timer => { t with current := 0, running := false, due := false }
    let settled := s.job.state ≠ .draining ∨ s.wnc.state ≠ .idle
    (s.wnc.knife.due = false → exec .knifeTimerExpiry s = .next (pump s)) ∧
    (s.wnc.knife.due = true → s.wnc.state ≠ .knife → exec .knifeTimerExpiry s =
      .next (pump { s with wnc := { s.wnc with knife := off s.wnc.knife, knifeOn := false } })) ∧
    (s.wnc.knife.due = true → s.wnc.state = .knife → exec .knifeTimerExpiry s =
      .next (pump { s with wnc := { s.wnc with
        knife := off s.wnc.knife, knifeOn := false, state := .indexing, turretOn := true
        turret := s.wnc.turret.start s.act.winder.turretTime } })) ∧
    (s.wnc.turret.due = false → settled → exec .turretTimerExpiry s = .next (pump s)) ∧
    (s.wnc.turret.due = true → s.wnc.state ≠ .indexing → settled → exec .turretTimerExpiry s =
      .next (pump { s with wnc := { s.wnc with turret := off s.wnc.turret, turretOn := false } })) ∧
    ∀ f, s.wnc.turret.due = true → s.wnc.state = .indexing → s.wnc.follows = some f →
      let w := { s.wnc with turret := off s.wnc.turret, turretOn := false }
      let drained := s.job.state = .draining ∧ ∀ i : Fin 12, s.wnc.slots[i].busy = false
      let ended := { s with wnc := { w with
        state := .idle, follows := none, gateOpen := true, start := .none, stopOn := false } }
      let ended := if s.wnc.stopOn then raise .stopOff ended else ended
      (f.what = .end_ → drained → exec .turretTimerExpiry s = .next (pump (jobDrained ended))) ∧
      (f.what = .end_ → ¬ drained → exec .turretTimerExpiry s = .next (pump ended)) ∧
      (f.what = .waste → exec .turretTimerExpiry s = .next (pump (checkDrained (wncSettle { s with wnc := { w with
        state := .threading, follows := none, start := f.thread } })))) ∧
      (f.what = .roll → exec .turretTimerExpiry s = .next (pump (checkDrained (wncSettle
        (startRoll f.first f.cutPos (if f.lengthMode then .length else .pattern) { s with wnc := w })))))

/-- A doff pulse moves the slot in CUT to LABEL_PENDING, graded and queued for its label: grade R without a
batch, grade A and B with the one that the roll is placed in; its defect counts are taken of its records by
kind, each record with a defect counted once as a defect repeat; with no slot in CUT it is ignored and counted
(R145, R155 to R157, R159, R164). The DOFF notice carries the slot and the roll; the roll's grade is counted, and an
unknown shade too; the GRADED notice follows the batch's (R159, R162); and with the labeller IDLE the roll's label
is composed and sent at once, with its LABEL notice (R167). That DOFF comes before the batch's notices is the
model's choice (log entry 13). -/
def Obligations.DoffPulseMovesCutRoll : Prop :=
  ∀ s : State,
    ((∀ (i : Fin 12) r, s.wnc.slots[i] ≠ .used .cut r) →
      exec .doffPulse s = .next (pump (raise (.doff none) { s with wnc := { s.wnc with
        counts := { s.wnc.counts with ignoredDoffs := min (s.wnc.counts.ignoredDoffs + 1) 65535 } } }))) ∧
    ∀ i r, LabelsInOrder s → s.wnc.slots[i] = .used .cut r →
      let mine := s.rst.records.filter fun x => x.inRoll i r.number
      let isOut := fun x : Record => x.reg.any (·.out)
      let embOut := fun x : Record => x.emb.any (·.out)
      let notEmbossed := fun x : Record => x.emb.bind (·.nip) != some true
      let isTracking := fun x : Record => x.predicted || x.missed || x.unmatched
      let hasSide := fun x : Record => x.shd.any (·.side)
      let d : Defects := {
        regOut := mine.countP isOut, embOut := mine.countP embOut, notEmbossed := mine.countP notEmbossed
        wrongRepeat := mine.countP fun x => x.emb.any (·.wrongRepeat)
        tracking := mine.countP isTracking, side := mine.countP hasSide
        remark := mine.countP fun x => x.remark != 0
        repeats := mine.countP fun x =>
          isOut x || embOut x || notEmbossed x || isTracking x || hasSide x || x.remark != 0 }
      let g := gradeOf s.act.grade r.mode r.shade d
      ∃ t batch, exec .doffPulse s = .next t ∧
        t.wnc.slots[i] = .used .labelPending { r with
          defects := d, grade := some g, batch := batch
          label := if s.lbu.state = .idle then .sent else .queued } ∧
        (g = .r → batch = none ∧ t.gru.table = s.gru.table) ∧
        (g ≠ .r → ∃ b e k, batch = some b ∧ b.deltaE ≤ s.act.grade.batchTolerance ∧
          t.gru.table[(e : Fin 8)] = some k ∧ k.closed = none ∧ k.number = b.number ∧ k.lastRoll = r.number) ∧
        (let graded := { r with defects := d, grade := some g, batch := none }
         let w := { s.wnc with
           slots := s.wnc.slots.set i (.used .labelPending graded)
           counts := { s.wnc.counts with doffs := min (s.wnc.counts.doffs + 1) 65535 } }
         let pulsed := raise (.doff (some (i, r.number))) { s with wnc := w }
         let placed := match r.shade with
           | some x => if g = Grade.r then pulsed else placeBatch i r x pulsed
           | none => pulsed
         let up := fun n : Nat => min (n + 1) 65535
         let n := placed.gru.counts
         let counted := raise (.graded i r.number g batch d.repeats (r.shade.map (·.spread)))
           { placed with gru := { placed.gru with counts := { n with
             gradedA := if g = Grade.a then up n.gradedA else n.gradedA
             gradedB := if g = Grade.b then up n.gradedB else n.gradedB
             gradedR := if g = Grade.r then up n.gradedR else n.gradedR
             unknown := if r.shade = none then up n.unknown else n.unknown } } }
         let labelled := fun st : LabelStatus =>
           { w with slots := s.wnc.slots.set i (.used .labelPending { graded with batch, label := st }) }
         batch = (placed.wnc.slots[i].roll?).bind (·.batch) ∧
         (s.lbu.state ≠ .idle → exec .doffPulse s = .next (pump { counted with
           wnc := labelled .queued, lbu := { s.lbu with queue := s.lbu.queue ++ [i] } })) ∧
         (s.lbu.state = .idle →
           let bytes := composeLabel s.act { graded with batch }
           exec .doffPulse s = .next (pump (raise (.label i r.number .sent) { counted with
             wnc := labelled .sent
             lbu := { s.lbu with
               state := .await, queue := [i], composed := some bytes, gotF := false
               sending := s.lbu.sending ++ [⟨bytes, true⟩]
               counts := { s.lbu.counts with sent := up s.lbu.counts.sent } } })))) ∧
        (g ≠ .r → ∃ x, r.shade = some x ∧
          let placed := placeBatch i r x s
          batch = placed.wnc.slots[i].roll?.bind (·.batch) ∧ t.gru.table = placed.gru.table ∧
          t.gru.nextBatch = placed.gru.nextBatch ∧ t.gru.use = placed.gru.use) ∧
        (∀ j, j ≠ i → t.wnc.slots[j] = s.wnc.slots[j]) ∧ t.lbu.queue = s.lbu.queue ++ [i] ∧
        t.wnc.counts.doffs = min (s.wnc.counts.doffs + 1) 65535 ∧ t.wnc.state = s.wnc.state ∧
        t.epu = s.epu ∧ t.mrd = s.mrd ∧ t.rtk = s.rtk ∧ t.rst = s.rst ∧ t.rlu = s.rlu ∧ t.tou = s.tou ∧
        t.emc = s.emc ∧ t.shu = s.shu ∧ t.job = s.job ∧ t.act = s.act ∧ t.store = s.store ∧
        t.pending = s.pending

/-- ΔE is the largest whole number whose square does not exceed the sum of squares, at most 37,286 over the
ranges of the shade values, and the grade is the table's (R153, R156). -/
def Obligations.DeltaEAndGrade : Prop :=
  (∀ l1 a1 b1 l2 a2 b2 : Int,
    let sum := (l1 - l2) * (l1 - l2) + (a1 - a2) * (a1 - a2) + (b1 - b2) * (b1 - b2)
    let e := deltaE l1 a1 b1 l2 a2 b2
    (e : Int) * e ≤ sum ∧ sum < ((e : Int) + 1) * (e + 1) ∧
    ((0 ≤ l1 ∧ l1 ≤ 10000 ∧ 0 ≤ l2 ∧ l2 ≤ 10000 ∧ a1.natAbs ≤ 12700 ∧ a2.natAbs ≤ 12700 ∧
      b1.natAbs ≤ 12700 ∧ b2.natAbs ≤ 12700) → e ≤ 37286)) ∧
  ∀ (cfg : GradeSettings) (mode : RollMode) (shade : Option RollShade) (d : Defects),
    let isR := mode = .length ∨ shade = none ∨ d.wrongRepeat ≠ 0 ∨
      (∃ x, shade = some x ∧ cfg.rejectSpread < x.spread) ∨ cfg.bLimit < d.repeats
    let isA := d.repeats = 0 ∧ ∃ x, shade = some x ∧ x.spread ≤ cfg.bSpread
    (gradeOf cfg mode shade d = .r ↔ isR) ∧ (gradeOf cfg mode shade d = .a ↔ ¬ isR ∧ isA) ∧
      (gradeOf cfg mode shade d = .b ↔ ¬ isR ∧ ¬ isA)

/-- The batch a graded roll is placed in, and how batches close. The number taken for a new batch is the first,
from the next batch number on, that no OPEN batch holds (R158). A roll joins the OPEN batch of the smallest ΔE,
of the lower number where two share it, when that ΔE is within the tolerance (R157); otherwise a new batch opens
with the roll's mean as its reference in the lowest EMPTY entry, or in the CLOSED one of greatest closing age,
with 8 OPEN batches after the least recently used has closed; a CLOSED entry that holds its number is emptied
(R158). BATCH CLOSE is decided by the entry that holds its number (R160). That a roll of negative length adds 0 to a
batch's total length is the model's choice (log entry 41). -/
def Obligations.BatchesAreChosenAndClosed : Prop :=
  (∀ (g : Gru) (n : Nat), 1 ≤ n → n ≤ 65535 →
    let taken := g.tryNumber 9 n
    let after := fun m : Nat => if 65535 ≤ m then 1 else m + 1
    1 ≤ taken ∧ taken ≤ 65535 ∧
    (∀ (e : Fin 8) b, g.table[e] = some b → b.closed = none → b.number ≠ taken) ∧
    ∃ k ≤ 8, taken = after^[k] n ∧
      ∀ m < k, ∃ (e : Fin 8) (b : Batch), g.table[e] = some b ∧ b.closed = none ∧ b.number = after^[m] n) ∧
  (∀ (i : Fin 12) (ph : SlotPhase) (q r : Roll) (x : RollShade) (s : State), s.wnc.slots[i] = .used ph q →
    let placed := placeBatch i r x s
    let g := s.gru
    let up := fun n : Nat => min (n + 1) 65535
    let length := (r.length.getD 0).toNat
    let far := fun b : Batch => deltaE x.l x.a x.b b.l b.a b.b
    let slots := fun (number : Nat) (dE : Nat) =>
      s.wnc.slots.set i (.used ph { q with batch := some ⟨number, dE⟩ })
    let opens := fun (e : Fin 8) (w : State) =>
      let n := w.gru.tryNumber 9 w.gru.nextBatch
      raise (.batchOpen n e x.l x.a x.b r.number) { w with
        gru := {
          table := Vector.ofFn fun j =>
            if j = e then some { number := n, l := x.l, a := x.a, b := x.b, rolls := 1
                                 length := min length (2 ^ 48 - 1), firstRoll := r.number
                                 lastRoll := r.number, lastUse := w.gru.use + 1, closed := none }
            else if w.gru.table[j].any (fun k => k.closed.isSome && k.number == n) then none
            else w.gru.table[j]
          nextBatch := if 65535 ≤ n then 1 else n + 1
          use := w.gru.use + 1
          counts := { w.gru.counts with opened := up w.gru.counts.opened } }
        wnc := { w.wnc with slots := slots n 0 } }
    (∀ (e : Fin 8) b, g.table[e] = some b → b.closed = none → far b ≤ s.act.grade.batchTolerance →
      (∀ (j : Fin 8) c, j ≠ e → g.table[j] = some c → c.closed = none →
        far b < far c ∨ (far b = far c ∧ b.number < c.number)) →
      placed = { s with
        gru := { g with
          table := g.table.set e (some { b with
            rolls := up b.rolls, length := min (b.length + length) (2 ^ 48 - 1)
            lastRoll := r.number, lastUse := g.use + 1 })
          use := g.use + 1 }
        wnc := { s.wnc with slots := slots b.number (far b) } }) ∧
    ((∀ (j : Fin 8) c, g.table[j] = some c → c.closed = none → s.act.grade.batchTolerance < far c) →
      (∀ e : Fin 8, g.table[e] = none → (∀ j < e, g.table[j] ≠ none) → placed = opens e s) ∧
      (∀ (e : Fin 8) b stamp cause, (∀ j : Fin 8, g.table[j] ≠ none) → g.table[e] = some b →
        b.closed = some (stamp, cause) →
        (∀ (j : Fin 8) c st cs, j ≠ e → g.table[j] = some c → c.closed = some (st, cs) →
          (g.use - st).toNat < (g.use - stamp).toNat) → placed = opens e s) ∧
      ∀ (e : Fin 8) b, (∀ j : Fin 8, ∃ c, g.table[j] = some c ∧ c.closed = none) → g.table[e] = some b →
        (∀ (j : Fin 8) c, j ≠ e → g.table[j] = some c →
          (g.use - c.lastUse).toNat < (g.use - b.lastUse).toNat) →
        placed = opens e (raise (.batchClosed b.number e .lru b.rolls b.lastRoll) { s with gru := { g with
          table := g.table.set e (some { b with closed := some (g.use + 1, .lru) })
          use := g.use + 1
          counts := { g.counts with lru := up g.counts.lru } } }))) ∧
  ∀ (tag : Byte) (number : BitVec 16) (s : State), Takeable s →
    let out := exec (.batchClose tag number) s
    let stops := fun r => out = .next (pump (refuse 24 tag r s))
    (number = 0 → stops .value) ∧
    (number ≠ 0 → (∀ (e : Fin 8) b, s.gru.table[e] = some b → b.number ≠ number.toNat) → stops .notFound) ∧
    ∀ (e : Fin 8) b, number ≠ 0 → s.gru.table[e] = some b → b.number = number.toNat →
      (∀ (j : Fin 8) c, j < e → s.gru.table[j] = some c → c.number ≠ number.toNat) →
      (b.closed ≠ none → stops .state) ∧
      (b.closed = none → out = .next (pump (accept 24 tag []
        (raise (.batchClosed b.number e .host b.rolls b.lastRoll) { s with gru := { s.gru with
          table := s.gru.table.set e (some { b with closed := some (s.gru.use + 1, .host) })
          use := s.gru.use + 1
          counts := { s.gru.counts with host := min (s.gru.counts.host + 1) 65535 } } }))))

/-! ### Labels -/

/-- A byte of the labeller line (R146, R168): in AWAIT an A confirms the head, whose slot is LABELLED and whose
records are freed, after which the next label in the queue is composed and sent, or with none left a drained job
ends in READY, its readers stopped, its nip lifted and its OPEN batches closed, each with its notice (R7, R106,
R147, R160, R167, R177; in the order of log entry 13); an F waits for its digit, which puts the label in FAULT;
any other byte is bad; and with no label in flight an A or F is ignored and counted. -/
def Obligations.LabellerRepliesAreTaken : Prop :=
  ∀ (b : Byte) (s : State),
    let out := exec (.labellerByteReceived b) s
    let put := fun l => (.next (pump { s with lbu := l }) : Host.Outcome State Fault Refusal)
    let bad := { s.lbu.counts with bad := min (s.lbu.counts.bad + 1) 65535 }
    let muted := s.lbu.sending.map fun x => { x with startsTimer := false }
    let drains := fun slots : Vector Slot 12 =>
      s.job.state = .draining ∧ s.wnc.state = .idle ∧ ∀ j : Fin 12, slots[j].busy = false
    (¬ drains s.wnc.slots →
      (s.lbu.state ≠ .await → b = 0x41 ∨ b = 0x46 → out = put { s.lbu with
        counts := { s.lbu.counts with ignored := min (s.lbu.counts.ignored + 1) 65535 } }) ∧
      (s.lbu.state ≠ .await → b ≠ 0x41 → b ≠ 0x46 → out = put { s.lbu with counts := bad }) ∧
      (s.lbu.state = .await → s.lbu.gotF = false → b = 0x46 → out = put { s.lbu with gotF := true }) ∧
      (s.lbu.state = .await → s.lbu.gotF = false → b ≠ 0x41 → b ≠ 0x46 →
        out = put { s.lbu with counts := bad }) ∧
      (s.lbu.state = .await → s.lbu.gotF = true → b.toNat < 0x30 ∨ 0x39 < b.toNat →
        out = put { s.lbu with gotF := false, counts := bad })) ∧
    (∀ i rest r (d : Fin 10), s.lbu.state = .await → s.lbu.gotF = true → b.toNat = 0x30 + d.val →
      s.lbu.queue = i :: rest → s.wnc.slots[i] = .used .labelPending r →
      out = .next (pump (raise (.label i r.number (.fault (.digit d))) { s with
        wnc := { s.wnc with
          slots := s.wnc.slots.set i (.used .labelPending { r with label := .fault (.digit d) }) }
        lbu := { s.lbu with
          state := .faultHold, gotF := false, sending := muted, timer := s.lbu.timer.stop
          counts := { s.lbu.counts with faults := min (s.lbu.counts.faults + 1) 65535 } } }))) ∧
    ∀ i rest r, s.lbu.state = .await → s.lbu.gotF = false → b = 0x41 → s.lbu.queue = i :: rest →
      s.wnc.slots[i] = .used .labelPending r →
      let slots := s.wnc.slots.set i (.used .labelled { r with label := .confirmed })
      let rst := { s.rst with records := freeWhere (fun x => x.inRoll i r.number) s.rst.records }
      let lbu := { s.lbu with
        state := .idle, queue := rest, composed := none, gotF := false, sending := muted
        timer := s.lbu.timer.stop
        counts := { s.lbu.counts with confirmed := min (s.lbu.counts.confirmed + 1) 65535 } }
      let confirmed := raise (.label i r.number .confirmed) { s with wnc := { s.wnc with slots }, rst, lbu }
      (rest = [] → ¬ drains slots → out = .next (pump confirmed)) ∧
      (rest = [] → drains slots → out = .next (pump (jobDrained confirmed))) ∧
      ∀ j more q, rest = j :: more → j ≠ i → s.wnc.slots[j] = .used .labelPending q →
        out = .next (pump (raise (.label j q.number .sent) { confirmed with
          wnc := { s.wnc with slots := slots.set j (.used .labelPending { q with label := .sent }) }
          lbu := { lbu with
            state := .await, composed := some (composeLabel s.act q)
            sending := muted ++ [⟨composeLabel s.act q, true⟩]
            counts := { lbu.counts with sent := min (s.lbu.counts.sent + 1) 65535 } } }))

/-- The CR of a label that awaits its reply starts the reply timer, whose expiry puts the label in fault with
code T; out of FAULT_HOLD a RESEND sends the same record again and a SKIP finishes the roll, after which the
next label in the queue is composed and sent, or with none left a drained job ends, its readers stopped, its nip
lifted and its OPEN batches closed, each with its notice (in the order of log entry 13); in any other state both
are refused STATE (R7, R106, R147, R160, R167 to R169, R177). A label's text is the fields of its template, the
reject template for grade R and the normal one otherwise, with a semicolon between each and the next and one CR,
each field as R166 has it and each number in decimal without leading zeros; that a negative length is written as 0 is
the model's choice (log entry 41). That an expiry with the timer not
run out changes nothing is the model's choice (log entry 1). -/
def Obligations.LabelHoldIsResolved : Prop :=
  (∀ n : Nat,
    (decimal n).foldl (fun v d => 10 * v + (d.toNat - 0x30)) 0 = n ∧
    (∀ d ∈ decimal n, 0x30 ≤ d.toNat ∧ d.toNat ≤ 0x39) ∧ ((decimal n).head? = some 0x30 → decimal n = [0x30]) ∧
    decimal n ≠ []) ∧
  (∀ (j : JobSettings) (r : Roll) (k : Fin 4),
    (if r.grade = some .r then j.label.rejectTemplate else j.label.normalTemplate) = k.val →
    let name := j.label.designName.toList
    ∃ kept spaces, name = kept ++ spaces ∧ (∀ b ∈ spaces, b = 0x20) ∧ kept.getLast? ≠ some 0x20 ∧
      let inMetres := fun (counts : Int) (units : Nat) => (roundDiv (counts * units) j.countsPerMetre).toNat
      let text := fun code : FieldCode => match code with
        | .roll => decimal r.number
        | .design => kept
        | .dnum => decimal r.design.toNat
        | .batch => match r.batch with
          | some b => decimal b.number
          | none => [0x52]
        | .grade => match r.grade with
          | some .a => [0x41]
          | some .b => [0x42]
          | some .r => [0x52]
          | none => []
        | .len => decimal (inMetres (r.length.getD 0) 100)
        | .reps => decimal r.count
        | .match_ => decimal (inMetres r.matchOffset 1000)
        | .short => if r.short then [0x53] else []
        | .defects => decimal r.defects.repeats
      composeLabel j r = List.intercalate [0x3B] (j.templates[k].map text) ++ [0x0D]) ∧
  ∀ s : State,
    let idle := { s.lbu.timer with current := 0, running := false, due := false }
    let muted := s.lbu.sending.map fun x => { x with startsTimer := false }
    (s.lbu.sending = [] → exec .labelCrTransmitted s = .next (pump s)) ∧
    (∀ x rest, s.lbu.sending = x :: rest →
      exec .labelCrTransmitted s = .next (pump { s with lbu := { s.lbu with
        sending := rest
        timer := if x.startsTimer = true ∧ s.lbu.state = .await then
            s.lbu.timer.start s.act.label.replyTime
          else s.lbu.timer } })) ∧
    (s.lbu.timer.due = false → exec .replyTimerExpiry s = .next (pump s)) ∧
    (s.lbu.timer.due = true → s.lbu.state ≠ .await →
      exec .replyTimerExpiry s = .next (pump { s with lbu := { s.lbu with timer := idle } })) ∧
    (∀ i rest r, s.lbu.timer.due = true → s.lbu.state = .await → s.lbu.queue = i :: rest →
      s.wnc.slots[i] = .used .labelPending r →
      exec .replyTimerExpiry s = .next (pump (raise (.label i r.number (.fault .timeout)) { s with
        wnc := { s.wnc with
          slots := s.wnc.slots.set i (.used .labelPending { r with label := .fault .timeout }) }
        lbu := { s.lbu with
          state := .faultHold, gotF := false, sending := muted, timer := idle
          counts := { s.lbu.counts with timeouts := min (s.lbu.counts.timeouts + 1) 65535 } } }))) ∧
    ∀ tag,
      (Takeable s → s.lbu.state ≠ .faultHold →
        exec (.labelResend tag) s = .next (pump (refuse 25 tag .state s))) ∧
      (∀ i rest r bytes, Takeable s → s.lbu.state = .faultHold → s.lbu.queue = i :: rest →
        s.wnc.slots[i] = .used .labelPending r → s.lbu.composed = some bytes →
        exec (.labelResend tag) s = .next (pump (accept 25 tag [] (raise (.label i r.number .resent)
          { s with
            wnc := { s.wnc with slots := s.wnc.slots.set i (.used .labelPending { r with label := .sent }) }
            lbu := { s.lbu with
              state := .await, gotF := false, sending := s.lbu.sending ++ [⟨bytes, true⟩]
              counts := { s.lbu.counts with sent := min (s.lbu.counts.sent + 1) 65535
                                            resends := min (s.lbu.counts.resends + 1) 65535 } } })))) ∧
      (Takeable s → s.lbu.state ≠ .faultHold →
        exec (.labelSkip tag) s = .next (pump (refuse 26 tag .state s))) ∧
      ∀ i rest r, Takeable s → s.lbu.state = .faultHold → s.lbu.queue = i :: rest →
        s.wnc.slots[i] = .used .labelPending r →
        let slots := s.wnc.slots.set i (.used .labelled { r with label := .skipped })
        let rst := { s.rst with records := freeWhere (fun x => x.inRoll i r.number) s.rst.records }
        let lbu := { s.lbu with
          state := .idle, queue := rest, composed := none, gotF := false, sending := muted
          timer := s.lbu.timer.stop
          counts := { s.lbu.counts with skipped := min (s.lbu.counts.skipped + 1) 65535 } }
        let skipped := raise (.label i r.number .skipped) { s with wnc := { s.wnc with slots }, rst, lbu }
        let drained := s.job.state = .draining ∧ s.wnc.state = .idle ∧ ∀ j : Fin 12, slots[j].busy = false
        (rest = [] → ¬ drained → exec (.labelSkip tag) s = .next (pump (accept 26 tag [] skipped))) ∧
        (rest = [] → drained →
          exec (.labelSkip tag) s = .next (pump (accept 26 tag [] (jobDrained skipped)))) ∧
        ∀ j more q, rest = j :: more → j ≠ i → s.wnc.slots[j] = .used .labelPending q →
          exec (.labelSkip tag) s = .next (pump (accept 26 tag [] (raise (.label j q.number .sent) { skipped with
            wnc := { s.wnc with slots := slots.set j (.used .labelPending { q with label := .sent }) }
            lbu := { lbu with
              state := .await, composed := some (composeLabel s.act q)
              sending := muted ++ [⟨composeLabel s.act q, true⟩]
              counts := { lbu.counts with sent := min (s.lbu.counts.sent + 1) 65535 } } })))

/-! ### Job control -/

/-- JOB LOAD (R177): STATE while ARMED or DRAINING, VALUE for a slot above 3, NOT_FOUND for an invalid record;
accepted, the record's settings are the active ones, loops beyond its station count are OFF (R59), and the job is
READY. Every watched splice keeps its place in the watch list (R94), and holds whether D has passed its lift point
under the new settings (R108, log entry 4). That a polarity change under pending steps is refused STATE (R81) after
the others is the model's order (log entry 8). Loops taken out of COAST raise their LOOP notices, with free causes
and indices (log entry 2) and from L1 on, and the JOB notice comes after them (log entry 13); a loop that is OFF
already keeps the steps jogged onto its output (log entry 39). -/
def Obligations.JobLoadReplacesSettings : Prop :=
  ∀ (tag slot : Byte) (s : State), Takeable s →
    let onLine := s.job.state = .armed ∨ s.job.state = .draining
    let out := exec (.jobLoad tag slot) s
    let stops := fun r => out = .next (pump (refuse 4 tag r s))
    (onLine → stops .state) ∧ (¬ onLine → 3 < slot.toNat → stops .value) ∧
    ∀ i : Fin 4, ¬ onLine → slot.toNat = i.val →
      (s.store.jobs[i] = none → stops .notFound) ∧
      ∀ j, s.store.jobs[i] = some j → j.valid = true →
        let held := ∃ k : Fin 8, s.act.trims[k].inverted ≠ j.trims[k].inverted ∧ s.tou.trims[k].pending ≠ 0
        (held → stops .state) ∧
        (¬ held → ∃ t, out = .next (pump (accept 4 tag [] t)) ∧ t.act = j ∧ t.job = { s.job with state := .ready } ∧
          (∀ k : Fin 8, k.val + 2 ≤ j.reader.stations ∨ k = 7 →
            t.rlu.loops[k] = s.rlu.loops[k] ∧ t.tou.trims[k] = s.tou.trims[k]) ∧
          (∀ k : Fin 8, k ≠ 7 → j.reader.stations < k.val + 2 →
            (s.rlu.loops[k].state = .off → t.rlu.loops[k] = s.rlu.loops[k] ∧ t.tou.trims[k] = s.tou.trims[k]) ∧
            (s.rlu.loops[k].state ≠ .off →
              t.rlu.loops[k] = { s.rlu.loops[k] with
                state := .off, history := [], lastGood := none, missRun := 0, settle := 0 } ∧
              t.tou.trims[k] = { s.tou.trims[k] with pending := 0, acc := 0 })) ∧
          (let gone := (List.finRange 8).filter fun k => k ≠ 7 ∧ j.reader.stations < k.val + 2
           t.free = s.free + (inCoast s gone).length ∧
           t.link = (raiseAll (coastNotices s gone .off ++
             if s.job.state = .ready then [] else [.job s.job.state .ready .jobLoad]) s).link) ∧
          t.wnc = { s.wnc with knife := { s.wnc.knife with reload := j.winder.knifeTime }
                               turret := { s.wnc.turret with reload := j.winder.turretTime } } ∧
          t.shu = { s.shu with timer := { s.shu.timer with reload := j.shade.timeout } } ∧
          t.lbu = { s.lbu with timer := { s.lbu.timer with reload := j.label.replyTime } } ∧
          t.tou.draw = s.tou.draw ∧ t.epu = s.epu ∧ t.mrd = s.mrd ∧ t.rtk = s.rtk ∧ t.rst = s.rst ∧
          (let lead : Int := j.emboss.nipDistance - j.emboss.liftLead
           t.emc = { s.emc with watch := s.emc.watch.map fun w =>
             { w with liftPassed := decide (0 < posDiff s.epu.d.pos (posShift w.pos lead)) } }) ∧
          t.gru = s.gru ∧ t.store = s.store ∧ t.pending = s.pending)

/-- ARM is refused STATE unless the job is READY; accepted, every block takes its ARM values and the job is ARMED,
while positions, outputs pending, splices, slots, batches and settings stay (R7, R23, R39, R52, R54, R62, R80, R90,
R94, R95, R116, R126, R130, R150, R162, R171, R177): the auto-engage pending flag is clear, the next record to stamp
at the nip is the first of the job, a poll cycle in flight and its head timeout end, and the winder threads from the
oldest record, with no record held and no cut to follow. That a poll on the head line runs out (log entry 17) and
that the start deferral count is kept (log entry 25) is the model's choice. The notices are TRACK, LOOP of each loop
that leaves COAST, with free causes and indices (log entry 2), STOP when the request was set, and JOB, in that order
by the model's choice (log entry 13). -/
def Obligations.ArmTakesArmValues : Prop :=
  ∀ (tag : Byte) (s : State), Takeable s →
    (s.job.state ≠ .ready → exec (.arm tag) s = .next (pump (refuse 5 tag .state s))) ∧
    (s.job.state = .ready → ∃ t, exec (.arm tag) s = .next (pump (accept 5 tag [] t)) ∧
      t.job = { s.job with state := .armed } ∧
      t.rst = { records := [], peak := 0, late := ⟨0, 0, 0, 0, 0⟩, orphans := 0, amend := s.rst.amend } ∧
      t.mrd = { print := { Reader.reset with scannerDark := s.mrd.print.scannerDark
                                             level := s.mrd.print.scannerDark }
                emboss := { Reader.reset with scannerDark := s.mrd.emboss.scannerDark
                                              level := s.mrd.emboss.scannerDark }
                group := none, embossGroup := none, held := [] } ∧
      t.rtk = { Rtk.reset with state := .search, splices := s.rtk.splices } ∧
      (∀ i : Fin 8, t.rlu.loops[i] = { Loop.reset with state :=
        if s.rlu.loops[i].state = .off ∨ s.rlu.loops[i].state = .hold then s.rlu.loops[i].state else .fill } ∧
        t.tou.trims[i] = { s.tou.trims[i] with saturations := 0, dropped := 0 }) ∧
      t.tou.draw = { s.tou.draw with clamps := 0 } ∧
      t.emc = { s.emc with
        lastDown := none, lastLD := none, pairKey := none, gap := s.act.emboss.ratio, stretch := []
        wrongRun := 0, overRun := 0, autoPending := false, stampFrom := 0
        counts := ⟨0, 0, 0, 0, 0, 0, 0, 0⟩ } ∧
      t.shu = { s.shu with
        queue := [], cycle := none, timer := { s.shu.timer with current := 0, running := false, due := false }
        counts := ⟨0, 0, 0, 0, 0, 0, 0, 0, 0⟩
        heads := s.shu.heads.map fun h => { h with counts := ⟨0, 0, 0, 0, 0, 0⟩ } } ∧
      t.wnc = { s.wnc with
        state := .threading, gateOpen := true, stopOn := false, winding := none, armed := none, close := .seek 0
        follows := none, held := [], start := .from_ 0, waste := none, cutStarts := [], lengths := []
        design := s.act.winder.design, counts := ⟨0, 0, 0, 0, 0, 0, 0, 0, 0⟩ } ∧
      t.gru = { s.gru with counts := ⟨0, 0, 0, 0, 0, 0, 0⟩ } ∧
      t.lbu = { s.lbu with counts := ⟨0, 0, 0, 0, 0, 0, 0, 0⟩ } ∧
      (let loops := List.finRange 8
       t.free = s.free + (inCoast s loops).length ∧
       t.link = (raiseAll ((if s.rtk.state = .search then [] else [.track s.rtk.state .search 0 s.epu.u.pos]) ++
         coastNotices s loops .fill ++ (if s.wnc.stopOn then [.stopOff] else []) ++ [.job .ready .armed .arm])
         s).link) ∧
      t.epu = s.epu ∧ t.act = s.act ∧ t.store = s.store ∧ t.pending = s.pending)

/-- JOB END is taken in ARMED, JOB ABORT in ARMED and DRAINING, JOB CLEAR in READY, each refused STATE elsewhere; what
each leaves (R7, R23, R52, R54, R62, R80, R87, R90, R94, R106, R116, R128, R129, R147, R148, R152, R160, R170, R177).
That the polls on the head line of a cycle that JOB CLEAR ends stay there (log entry 17), and the order of the
notices, in JOB END TRACK, JOB and then the winder's and those of the end of draining, in JOB ABORT LOOP (with free
causes and indices, log entry 2), NIP, ROLL_WASTED, STOP, BATCH_CLOSED, TRACK and JOB (log entry 13), is the model's
choice; that ROLL_WASTED gives the roll's records before the store is emptied is deduced (log entry 26). JOB ABORT
leaves a loop that is not OFF with its history and its last good sample cleared, its miss count and settle counter 0
and its last output and counts kept (R62), the Emboss Controller without a last downstream record, a last L_D or a
pairing key, with g at the emboss ratio, its stretch history empty and its consecutive counts 0 (R94), the winder with
its armed cut, the records held, the start record and the waste run none (R148), and the timers of the Shade Unit and
the Label Unit stopped (R116, R170); each OPEN batch is CLOSED with cause JOB and a stamp of its own, in entry order
(R160). That the next record to stamp is the oldest record after JOB ABORT too (log entry 43), the start deferral
count 0 (log entry 25), and that a label still waiting behind another's CR is sent whole at JOB ABORT and JOB CLEAR
(log entry 21), is the model's choice. -/
def Obligations.JobOrdersEndTheJob : Prop :=
  ∀ (tag : Byte) (s : State),
    (Takeable s →
      (s.job.state ≠ .armed → exec (.jobEnd tag) s = .next (pump (refuse 6 tag .state s))) ∧
      (s.job.state = .armed → ∃ t, exec (.jobEnd tag) s = .next (pump (accept 6 tag [] t)) ∧
        t.rtk = { s.rtk with state := .idle, run := [], window := none } ∧
        t.job = { s.job with state := if t.drained then .ready else .draining } ∧
        (let w := s.wnc
         let taken := ∀ x ∈ s.rst.records, x.wnd ≠ none ∨ x.index ∈ w.held
         let idled := { s with rtk := t.rtk }
         let tracked := if s.rtk.state = .idle then idled
           else raise (.track s.rtk.state .idle s.rtk.nextIndex s.epu.u.pos) idled
         let u := wncSettle (raise (.job .armed .draining .jobEnd)
           { tracked with job := { s.job with state := .draining } })
         (w.state = .idle → t.wnc = w ∧ t.rst = s.rst) ∧
         (w.state = .threading → taken →
           t.wnc = { w with
             state := .idle, gateOpen := true, start := .none, armed := none, waste := none, stopOn := false } ∧
           t.rst = match w.waste with
             | none => s.rst
             | some (first, last) => { s.rst with
                 records := freeWhere (fun x => first ≤ x.index && x.index ≤ last && x.isWaste) s.rst.records }) ∧
         (¬ (w.state = .threading ∧ taken) → t.wnc = u.wnc ∧ t.rst = u.rst) ∧
         ∃ v : State, t = (if v.drained then jobDrained v else v) ∧
           (¬ (w.state = .threading ∧ taken) → v = u) ∧
           (w.state = .threading → taken →
             let ended := { raise (.job .armed .draining .jobEnd)
                 { tracked with job := { s.job with state := .draining } } with
               rst := v.rst
               wnc := { w with
                 state := .idle, gateOpen := true, start := .none, armed := none, waste := none, stopOn := false } }
             v = if w.stopOn then raise .stopOff ended else ended)) ∧
        (t.drained = true → t.emc.nip.valve = false ∧ t.mrd.group = none ∧
          ∀ (e : Fin 8) b, t.gru.table[e] = some b → b.closed ≠ none) ∧
        t.epu = s.epu ∧ t.rlu = s.rlu ∧ t.tou = s.tou ∧ t.shu = s.shu ∧ t.lbu = s.lbu ∧ t.act = s.act ∧
        t.store = s.store ∧ t.pending = s.pending)) ∧
    (Takeable s →
      let onLine := s.job.state = .armed ∨ s.job.state = .draining
      (¬ onLine → exec (.jobAbort tag) s = .next (pump (refuse 7 tag .state s))) ∧
      (onLine → ∃ t, exec (.jobAbort tag) s = .next (pump (accept 7 tag [] t)) ∧
        t.job = { s.job with state := .ready } ∧ t.rst = { s.rst with records := [] } ∧
        t.rtk = { s.rtk with state := .idle, run := [], window := none } ∧
        (t.mrd.group = none ∧ t.mrd.embossGroup = none ∧ t.mrd.held = [] ∧
          t.mrd.print = { s.mrd.print with lead := none } ∧ t.mrd.emboss = { s.mrd.emboss with lead := none }) ∧
        (∀ i : Fin 8, t.rlu.loops[i] = (if s.rlu.loops[i].state = .off then s.rlu.loops[i] else
            { s.rlu.loops[i] with state := .off, history := [], lastGood := none, missRun := 0, settle := 0 }) ∧
          t.tou.trims[i] = { s.tou.trims[i] with pending := 0, residue := 0, acc := 0 }) ∧
        t.tou.draw = { s.tou.draw with v := 32768, command := 0 } ∧
        (let on := s.emc.nip = .engaging ∨ s.emc.nip = .engaged
         t.emc = { s.emc with
           nip := if on then .lifting else s.emc.nip
           timer := if on then s.emc.timer.start s.act.emboss.liftTime else s.emc.timer
           lastLift := if on then .job else s.emc.lastLift
           lastDown := none, lastLD := none, pairKey := none, gap := s.act.emboss.ratio, stretch := []
           wrongRun := 0, overRun := 0, autoPending := false, stampFrom := 0 }) ∧
        t.shu = { s.shu with
          queue := [], cycle := none, timer := { s.shu.timer with current := 0, running := false, due := false } } ∧
        t.wnc = { s.wnc with
          slots := t.wnc.slots, state := .idle, gateOpen := true, stopOn := false, winding := none, armed := none
          close := .seek 0, follows := none, held := [], start := .none, waste := none, cutStarts := []
          startDeferral := 0 } ∧
        (∀ i : Fin 12, t.wnc.slots[i] =
          match s.wnc.slots[i] with
          | .used .labelled r => .used .labelled r
          | _ => .free) ∧
        (∀ (e : Fin 8), (s.gru.table[e] = none → t.gru.table[e] = none) ∧
          ∀ b, t.gru.table[e] = some b → b.closed ≠ none) ∧
        t.gru = (batchesEnded s).gru ∧
        t.lbu = { s.lbu with
          state := .idle, queue := [], composed := none, gotF := false
          timer := { s.lbu.timer with current := 0, running := false, due := false }
          sending := s.lbu.sending.map fun x => { x with startsTimer := false } } ∧
        (let loops := List.finRange 8
         let wasted := (List.finRange 12).filterMap fun i => match s.wnc.slots[i] with
           | .free => none
           | .used .labelled _ => none
           | .used _ r => some (NoticeBody.rollWasted r.number i
               (s.rst.records.filter fun x => x.inRoll i r.number).length .abort)
         let closed := loops.filterMap fun e => s.gru.table[e].bind fun b =>
           if b.closed = none then some (NoticeBody.batchClosed b.number e .job b.rolls b.lastRoll) else none
         t.free = s.free + (inCoast s loops).length ∧
         t.link = (raiseAll (coastNotices s loops .off ++
           (if s.emc.nip = .engaging ∨ s.emc.nip = .engaged then
             [.nip s.emc.nip .lifting .job s.epu.d.pos] else []) ++
           wasted ++ (if s.wnc.stopOn then [.stopOff] else []) ++ closed ++
           (if s.rtk.state = .idle then [] else [.track s.rtk.state .idle s.rtk.nextIndex s.epu.u.pos]) ++
           [.job s.job.state .ready .jobAbort]) s).link) ∧
        t.epu = s.epu ∧ t.act = s.act ∧ t.store = s.store ∧ t.pending = s.pending)) ∧
    (Takeable s →
      (s.job.state ≠ .ready → exec (.jobClear tag) s = .next (pump (refuse 8 tag .state s))) ∧
      (s.job.state = .ready → exec (.jobClear tag) s = .next (pump (accept 8 tag [] { s with
        wnc := { s.wnc with slots := emptySlots, nextRoll := s.act.winder.firstRoll }
        gru := { s.gru with table := emptyBatches, nextBatch := s.act.grade.firstBatch, use := 0 }
        shu := { s.shu with queue := [], cycle := none, timer := s.shu.timer.stop }
        lbu := { s.lbu with
          state := .idle, queue := [], composed := none, gotF := false, timer := s.lbu.timer.stop
          sending := s.lbu.sending.map fun x => { x with startsTimer := false } }
        rst := { s.rst with records := [], amend := none } }))))

/-- A cold reset (R183): every block at its reset values but for what no reset touches, the link at the device
record's rate, the settings of a valid start-up record or the defaults, and the START notice first. The nip timer's
reload, the store programming reload and the scanner levels kept are the model's choices (log entries 3, 5 and 6), and
so are that no partial answer and no poll is left on the head line (log entry 17), that the trigger output is cleared
(log entry 9), that the start deferral count is 0 (log entry 25) and that a loop taken out of COAST raises no LOOP
notice, tracking taken to IDLE no TRACK notice, a nip taken to LIFTED no NIP notice and a head taken to PRESENT or a
lamp flag cleared no HEAD notice, and that the draw period in flight ends there, with k at 0 and the high time of
midscale at once (log entry 35); that a stop request that was set raises its STOP notice behind the START notice, and
that g is the emboss ratio in force after start-up, is deduced (log entry 35). That a label being transmitted is
dropped (log entry 21), and a host link frame being sent, the answers ready and an answer kept for room with it, the
transmitter being free for the START notice (log entry 42), is the model's choice, and so is the oldest record as the
next to stamp (log entry 43). -/
def Obligations.ColdResetValues : Prop :=
  ∀ s : State,
    let rate := (s.store.device.map (·.rate)).getD 1
    let readers := { State.reset.mrd with
      print := { Reader.reset with scannerDark := s.mrd.print.scannerDark }
      emboss := { Reader.reset with scannerDark := s.mrd.emboss.scannerDark } }
    let base := { State.reset with
      mrd := readers
      link := { State.reset.link with
        rate, notices := if s.wnc.stopOn then [⟨0, 0, .stopOff⟩] else [] }
      store := s.store, free := s.free, pending := s.pending }
    ((s.store.device = none ∨ ∃ d, s.store.device = some d ∧
        (d.startup = none ∨ ∃ i, d.startup = some i ∧ s.store.jobs[i] = none)) →
      exec .coldReset s = .next base) ∧
    ∀ d i j, s.store.device = some d → d.startup = some i → s.store.jobs[i] = some j → j.valid = true →
      exec .coldReset s = .next { base with
        act := j
        job := { State.reset.job with state := .ready }
        link := { base.link with sending := some (.notice ⟨0, 0, .job .standby .ready .start⟩) }
        emc := { State.reset.emc with timer := Timer.idle j.emboss.engageTime, gap := j.emboss.ratio }
        shu := { State.reset.shu with timer := Timer.idle j.shade.timeout }
        wnc := { State.reset.wnc with
          knife := Timer.idle j.winder.knifeTime, turret := Timer.idle j.winder.turretTime
          nextRoll := j.winder.firstRoll, design := j.winder.design, rollTarget := j.winder.targetLength }
        gru := { State.reset.gru with nextBatch := j.grade.firstBatch }
        lbu := { State.reset.lbu with timer := Timer.idle j.label.replyTime } }

/-- JOB SET (R179): settings are valid that lie within their ranges and meet every condition of their chapters (R9,
R11, R22, R60, R61, R81, R93, R113, R127, R151, R165); the groups are numbered and as long as R178 lays down, and
contents stand for the settings whose fields they hold at their offsets (R178); VALUE for a group above 35, LENGTH
for contents of another size, VALUE for values or conditions that do not hold, STATE while ARMED or DRAINING for what
those states refuse; accepted, the whole group is replaced and nothing but the settings, the loops beyond the station
count, the timer reloads and what each watched splice holds of its lift point (R108, log entry 4) changes. Geometry
is counts per metre, the mark reader group, the nominal repeat and the two distances of R22, the filter sets, the
polarities, and what R93, R113 and R127 mark. That VALUE answers a condition of any group's chapter is deduced (log
entry 11), and which groups are refused while on line, the whole mark reader group among them (log entry 14), and
that the emboss ratio and the sampling divisor travel as the numbers themselves (log entry 29), too. A lower N's
loops that leave COAST raise their LOOP notices, with free causes and indices (log entry 2) and from L1 on (log entry
13), and a loop that is OFF already keeps the steps jogged onto its output (log entry 39): the model's choices. -/
def Obligations.JobSetIsDecided : Prop :=
  (∀ j : JobSettings, j.valid = true ↔ SettingsInRange j) ∧
  ([Group.scale, .reader, .track, .emboss, .shade, .winder, .grade, .label, .code].map
      (fun g => (g.number, g.size)) =
    [(0, 3), (1, 44), (2, 11), (23, 32), (24, 10), (29, 21), (30, 9), (35, 16), (36, 32)] ∧
    (∀ i : Fin 8, (Group.loop i).number = 3 + i ∧ (Group.loop i).size = 10 ∧
      (Group.trim i).number = 15 + i ∧ (Group.trim i).size = 5) ∧
    ∀ i : Fin 4, (Group.filter i).number = 11 + i ∧ (Group.filter i).size = 9 ∧
      (Group.head i).number = 25 + i ∧ (Group.head i).size = 9 ∧
      (Group.template i).number = 31 + i ∧ (Group.template i).size = 10) ∧
  (∀ (a j : JobSettings) (g : Group) (contents : List Byte), g ≠ .code → contents.length = g.size →
    (setGroup a contents g = some j → GroupLaidOut j g contents ∧ GroupReplaced a j g) ∧
    (j.valid = true → GroupLaidOut j g contents → GroupReplaced a j g → setGroup a contents g = some j)) ∧
  (∀ a b : JobSettings, sameGeometry a b = true ↔
    a.countsPerMetre = b.countsPerMetre ∧ a.reader = b.reader ∧ a.track.nominalRepeat = b.track.nominalRepeat ∧
    a.track.splicerDistance = b.track.splicerDistance ∧ a.track.transferDistance = b.track.transferDistance ∧
    a.filters = b.filters ∧ (∀ k : Fin 8, a.trims[k].inverted = b.trims[k].inverted) ∧
    a.emboss.scannerDistance = b.emboss.scannerDistance ∧ a.emboss.nipDistance = b.emboss.nipDistance ∧
    a.emboss.nominal = b.emboss.nominal ∧ a.emboss.ratio = b.emboss.ratio ∧
    a.emboss.lockIndex = b.emboss.lockIndex ∧ a.emboss.liftLead = b.emboss.liftLead ∧
    a.shade.headDistance = b.shade.headDistance ∧ a.shade.patchOffset = b.shade.patchOffset ∧
    a.shade.divisor = b.shade.divisor ∧ a.winder.knifeDistance = b.winder.knifeDistance ∧
    a.winder.matchOffset = b.winder.matchOffset) ∧
  ∀ (tag group : Byte) (contents : List Byte) (s : State), Takeable s →
    let out := exec (.jobSet tag group contents) s
    let stops := fun r => out = .next (pump (refuse 9 tag r s))
    (35 < group.toNat → stops .value) ∧
    ∀ g : Group, group.toNat ≤ 35 → g.number = group.toNat →
      (contents.length ≠ g.size → stops .length) ∧
      (contents.length = g.size → setGroup s.act contents g = none → stops .value) ∧
      ∀ j, contents.length = g.size → setGroup s.act contents g = some j →
        let onLine := s.job.state = .armed ∨ s.job.state = .draining
        let held := ∃ k : Fin 8, s.act.trims[k].inverted ≠ j.trims[k].inverted ∧ s.tou.trims[k].pending ≠ 0
        (j.valid = false → stops .value) ∧
        (j.valid = true → onLine ∧ sameGeometry s.act j = false ∨ held → stops .state) ∧
        (j.valid = true → ¬ (onLine ∧ sameGeometry s.act j = false) → ¬ held →
          ∃ t, out = .next (pump (accept 9 tag [] t)) ∧ t.act = j ∧ t.store = s.store ∧ t.job = s.job ∧
            (∀ k : Fin 8, k.val + 2 ≤ j.reader.stations ∨ k = 7 →
              t.rlu.loops[k] = s.rlu.loops[k] ∧ t.tou.trims[k] = s.tou.trims[k]) ∧
            (∀ k : Fin 8, k ≠ 7 → j.reader.stations < k.val + 2 →
              (s.rlu.loops[k].state = .off → t.rlu.loops[k] = s.rlu.loops[k] ∧ t.tou.trims[k] = s.tou.trims[k]) ∧
              (s.rlu.loops[k].state ≠ .off →
                t.rlu.loops[k] = { s.rlu.loops[k] with
                  state := .off, history := [], lastGood := none, missRun := 0, settle := 0 } ∧
                t.tou.trims[k] = { s.tou.trims[k] with pending := 0, acc := 0 })) ∧
            (let gone := (List.finRange 8).filter fun k => k ≠ 7 ∧ j.reader.stations < k.val + 2
             t.free = s.free + (inCoast s gone).length ∧
             t.link = (raiseAll (coastNotices s gone .off) s).link) ∧
            t.wnc = { s.wnc with knife := { s.wnc.knife with reload := j.winder.knifeTime }
                                 turret := { s.wnc.turret with reload := j.winder.turretTime } } ∧
            t.shu = { s.shu with timer := { s.shu.timer with reload := j.shade.timeout } } ∧
            t.lbu = { s.lbu with timer := { s.lbu.timer with reload := j.label.replyTime } } ∧
            (let lead : Int := j.emboss.nipDistance - j.emboss.liftLead
             t.emc = { s.emc with watch := s.emc.watch.map fun w =>
               { w with liftPassed := decide (0 < posDiff s.epu.d.pos (posShift w.pos lead)) } }) ∧
            t.epu = s.epu ∧ t.mrd = s.mrd ∧ t.rtk = s.rtk ∧ t.rst = s.rst ∧ t.gru = s.gru ∧
            t.tou.draw = s.tou.draw ∧ t.pending = s.pending)

/-- The contents of any group, the code match table among them, as JOB READ answers them hold every field of it at
its offset (R178, R179). The contents of any group but that table, written back by JOB SET, are accepted in every job
state and change no setting: every field of every group reads back as it was written (R178, R179). That the emboss
ratio and the sampling divisor stand there as the numbers themselves is deduced (log entry 29). -/
def Obligations.JobReadWrittenBackChangesNothing : Prop :=
  (∀ (j : JobSettings) (g : Group), j.valid = true → GroupLaidOut j g (groupBytes j g)) ∧
  ∀ (g : Group) (tag : Byte) (s : State), g ≠ .code → s.act.valid = true →
    (groupBytes s.act g).length = g.size ∧ setGroup s.act (groupBytes s.act g) g = some s.act ∧
    (Takeable s →
      ∃ t, exec (.jobSet tag (BitVec.ofNat 8 g.number) (groupBytes s.act g)) s =
        .next (pump (accept 9 tag [] t)) ∧ t.act = s.act)

/-- JOB STORE and DEVICE SET start a programming of 300 and 100 units with the record's valid mark cleared,
are refused VALUE out of range and BUSY while one is in flight, and are answered at the timer's expiry,
when the record is written (R181). That VALUE comes before BUSY (log entry 8) and that an expiry with the timer
not run out changes nothing (log entry 1) are the model's choices. -/
def Obligations.ProgrammingWritesTheRecord : Prop :=
  ∀ (tag : Byte) (s : State),
    (∀ slot, Takeable s →
      (3 < slot.toNat → exec (.jobStore tag slot) s = .next (pump (refuse 11 tag .value s))) ∧
      (slot.toNat ≤ 3 → s.job.prog ≠ none →
        exec (.jobStore tag slot) s = .next (pump (refuse 11 tag .busy s))) ∧
      ∀ i : Fin 4, slot.toNat = i.val → s.job.prog = none →
        exec (.jobStore tag slot) s = .next (pump { s with
          store := { s.store with jobs := s.store.jobs.set i none }
          job := { s.job with prog := some ⟨.job i s.act, tag⟩, timer := s.job.timer.start 300 } })) ∧
    (∀ rate startup, Takeable s →
      let inRange := rate.toNat ≤ 3 ∧ (startup.toNat ≤ 3 ∨ startup = 255)
      (¬ inRange → exec (.deviceSet tag rate startup) s =
        .next (pump (refuse 12 tag .value s))) ∧
      (inRange → s.job.prog ≠ none → exec (.deviceSet tag rate startup) s =
        .next (pump (refuse 12 tag .busy s))) ∧
      ∀ (r i : Fin 4), rate.toNat = r.val → s.job.prog = none →
        startup = 255 ∨ startup.toNat = i.val → exec (.deviceSet tag rate startup) s =
          .next (pump { s with
            store := { s.store with device := none }
            job := { s.job with
              prog := some ⟨.device ⟨r, if startup = 255 then none else some i⟩, tag⟩
              timer := s.job.timer.start 100 } })) ∧
    let idle := { s.job.timer with current := 0, running := false, due := false }
    (s.job.timer.due = false → exec .storeProgrammingTimerExpiry s = .next (pump s)) ∧
    (s.job.timer.due = true → s.job.prog = none →
      exec .storeProgrammingTimerExpiry s = .next (pump { s with job := { s.job with timer := idle } })) ∧
    ∀ p, s.job.timer.due = true → s.job.prog = some p →
      let kind := match p.target with
        | .job _ _ => (11 : Byte)
        | .device _ => 12
      let written := match p.target with
        | .job i j => { s.store with jobs := s.store.jobs.set i (some j) }
        | .device d => { s.store with device := some d }
      (s.link.answers.length < 8 → exec .storeProgrammingTimerExpiry s =
        .next (pump (accept kind p.tag [] { s with
          store := written, job := { s.job with prog := none, timer := idle } }))) ∧
      (8 ≤ s.link.answers.length → exec .storeProgrammingTimerExpiry s =
        .next (pump { s with
          store := written
          job := { s.job with prog := none, timer := idle, waiting := some ⟨kind + 128, p.tag, [0]⟩ } }))

/-- The reading orders answer with the fields that R184 and R182 lay out, each at its offset, refuse what they do not
find or do not know, and change nothing but the answers; RESTART is accepted in every state (R55, R76, R149, R161,
R179, R182). That VALUE comes before NOT_FOUND in a JOB READ is the model's choice (log entry 8), and so are the
widths and absent values that R182 and R184 do not give, and the print reader's counts before the emboss reader's on
STATUS page 1 and 0 in the history entries of LOOP READ beyond its history count (log entry 20), and a negative roll
length in two's complement (log entry 41). -/
def Obligations.ReadingOrdersChangeNothing : Prop :=
  ([CodeStatus.clean, .corrected, .uncorrectable, .none].map CodeStatus.code = [0, 1, 2, 3] ∧
    [Stage.created, .transferred, .downstream, .assigned, .closed].map Stage.code = [0, 1, 2, 3, 4] ∧
    [RollMode.pattern, .length].map RollMode.code = [0, 1] ∧ [Grade.a, .b, .r].map Grade.code = [0, 1, 2] ∧
    [LoopState.off, .fill, .track, .settle, .coast, .hold].map LoopState.code = [0, 1, 2, 3, 4, 5] ∧
    [JobState.standby, .ready, .armed, .draining].map JobState.code = [0, 1, 2, 3] ∧
    [Tracking.idle, .search, .locked, .coasting, .lost].map Tracking.code = [0, 1, 2, 3, 4] ∧
    [SplicePhase.waiting, .watch].map SplicePhase.code = [0, 1] ∧
    [NipState.lifted, .engaging, .engaged, .lifting].map NipState.code = [0, 1, 2, 3] ∧
    [NipCause.host, .auto, .timer, .splice, .spliceLost, .speed, .phase, .wrongRepeat, .job].map NipCause.code =
      [0, 1, 2, 3, 4, 5, 6, 7, 8] ∧
    [WinderState.idle, .threading, .winding, .cutArmed, .knife, .indexing].map WinderState.code =
      [0, 1, 2, 3, 4, 5] ∧
    [CutKind.start, .target, .forced, .length, .final].map CutKind.code = [0, 1, 2, 3, 4] ∧
    [LabellerState.idle, .await, .faultHold].map LabellerState.code = [0, 1, 2] ∧
    [CloseCause.lru, .host, .job].map CloseCause.code = [1, 2, 3] ∧
    (∀ x ∈ [LabelStatus.none, .queued, .sent, .confirmed, .skipped], x.faultByte = 0) ∧
    [LabelStatus.none, .queued, .sent, .confirmed, .skipped].map LabelStatus.code = [0, 1, 2, 3, 4] ∧
    (∀ d : Fin 10, (LabelStatus.fault (.digit d)).code = 5 ∧
      (LabelStatus.fault (.digit d)).faultByte.toNat = 48 + d.val) ∧
    (LabelStatus.fault .timeout).code = 5 ∧ (LabelStatus.fault .timeout).faultByte = 84) ∧
  ∀ (tag : Byte) (s : State),
    let gives := fun (kind : Byte) (i : Instr) (data : List Byte) =>
      exec i s = .next (pump (accept kind tag data s))
    let stops := fun (kind : Byte) (i : Instr) r => exec i s = .next (pump (refuse kind tag r s))
    (Takeable s → gives 1 (.ident tag) [0x7A, 0x0F, 0xD0, 0x12, 1, s.job.state.code]) ∧
    (Takeable s → gives 3 (.restart tag) []) ∧
    (∀ page, Takeable s →
      (9 < page.toNat → stops 2 (.status tag page) .value) ∧
      (page.toNat ≤ 9 → ∃ data, StatusLaidOut s page.toNat data ∧ gives 2 (.status tag page) data)) ∧
    (∀ source group, Takeable s →
      (36 < group.toNat ∨ 4 < source.toNat → stops 10 (.jobRead tag source group) .value) ∧
      ∀ g : Group, g.number = group.toNat →
        (source = 4 → gives 10 (.jobRead tag source group) (groupBytes s.act g)) ∧
        ∀ i : Fin 4, source.toNat = i.val →
          (s.store.jobs[i] = none → stops 10 (.jobRead tag source group) .notFound) ∧
          ∀ j, s.store.jobs[i] = some j → gives 10 (.jobRead tag source group) (groupBytes j g)) ∧
    (∀ loop, Takeable s →
      (loop = 0 ∨ 8 < loop.toNat → stops 15 (.loopRead tag loop) .value) ∧
      ∀ i : Fin 8, loop.toNat = i.val + 1 →
        gives 15 (.loopRead tag loop) (loopReadBytes i s.act.loops[i] s.rlu.loops[i]) ∧
        (s.rlu.loops[i].history.length ≤ 8 →
          LoopLaidOut i s.act.loops[i] s.rlu.loops[i] (loopReadBytes i s.act.loops[i] s.rlu.loops[i]))) ∧
    (∀ selector index, Takeable s →
      let read := Instr.repeatRead tag selector index
      let answers := fun (x : Option Record) =>
        (x = none → stops 21 read .notFound) ∧
          ∀ r, x = some r → gives 21 read (recordBytes r) ∧ RepeatLaidOut r (recordBytes r)
      (selector = 0 → answers (s.rst.records.find? fun r => r.index == index.toNat)) ∧
      (selector = 1 → answers s.rst.records.head?) ∧ (selector = 2 → answers s.rst.records.getLast?) ∧
      (selector = 3 → answers (s.rst.records.find? fun r => decide (index.toNat < r.index))) ∧
      (3 < selector.toNat → stops 21 read .value)) ∧
    (∀ choice number, Takeable s →
      let read := Instr.rollRead tag choice number
      (choice = 0 → 12 ≤ number.toNat → stops 22 read .value) ∧
      (∀ i : Fin 12, choice = 0 → number.toNat = i.val → gives 22 read (slotBytes i s.wnc.slots[i]) ∧
        RollLaidOut i s.wnc.slots[i] (slotBytes i s.wnc.slots[i])) ∧
      (choice = 1 → (∀ i p, ¬ holdsRoll s i p number.toNat) → stops 22 read .notFound) ∧
      (∀ i p, choice = 1 → holdsRoll s i p number.toNat → (∀ j q, holdsRoll s j q number.toNat → i ≤ j) →
        gives 22 read (slotBytes i s.wnc.slots[i])) ∧
      (1 < choice.toNat → stops 22 read .value)) ∧
    (∀ choice number, Takeable s →
      let read := Instr.batchRead tag choice number
      (choice = 0 → 8 ≤ number.toNat → stops 23 read .value) ∧
      (∀ e : Fin 8, choice = 0 → number.toNat = e.val → gives 23 read (batchBytes s.gru e) ∧
        BatchLaidOut e s.gru.table[e] s.gru.use (batchBytes s.gru e)) ∧
      (choice = 1 → (∀ (e : Fin 8) b, s.gru.table[e] = some b → b.number ≠ number.toNat) →
        stops 23 read .notFound) ∧
      (∀ (e : Fin 8) b, choice = 1 → s.gru.table[e] = some b → b.number = number.toNat →
        (∀ (j : Fin 8) c, s.gru.table[j] = some c → c.number = number.toNat → e ≤ j) →
        gives 23 read (batchBytes s.gru e)) ∧
      (1 < choice.toNat → stops 23 read .value))
end

