-- ==== Sys2Proof/Laws/State.lean ====
section
/-! SUPPORT. One lemma for each field of the state under each replacement of a field, so that no later
proof unfolds a record update. -/

namespace Sys2Proof.Machine

@[simp] theorem State.setEpu_epu (s : State) (x : Epu) : (s.setEpu x).epu = x := rfl
@[simp] theorem State.setEpu_mrd (s : State) (x : Epu) : (s.setEpu x).mrd = s.mrd := rfl
@[simp] theorem State.setEpu_rtk (s : State) (x : Epu) : (s.setEpu x).rtk = s.rtk := rfl
@[simp] theorem State.setEpu_rst (s : State) (x : Epu) : (s.setEpu x).rst = s.rst := rfl
@[simp] theorem State.setEpu_rlu (s : State) (x : Epu) : (s.setEpu x).rlu = s.rlu := rfl
@[simp] theorem State.setEpu_tou (s : State) (x : Epu) : (s.setEpu x).tou = s.tou := rfl
@[simp] theorem State.setEpu_emc (s : State) (x : Epu) : (s.setEpu x).emc = s.emc := rfl
@[simp] theorem State.setEpu_shu (s : State) (x : Epu) : (s.setEpu x).shu = s.shu := rfl
@[simp] theorem State.setEpu_wnc (s : State) (x : Epu) : (s.setEpu x).wnc = s.wnc := rfl
@[simp] theorem State.setEpu_gru (s : State) (x : Epu) : (s.setEpu x).gru = s.gru := rfl
@[simp] theorem State.setEpu_lbu (s : State) (x : Epu) : (s.setEpu x).lbu = s.lbu := rfl
@[simp] theorem State.setEpu_link (s : State) (x : Epu) : (s.setEpu x).link = s.link := rfl
@[simp] theorem State.setEpu_job (s : State) (x : Epu) : (s.setEpu x).job = s.job := rfl
@[simp] theorem State.setEpu_act (s : State) (x : Epu) : (s.setEpu x).act = s.act := rfl
@[simp] theorem State.setEpu_store (s : State) (x : Epu) : (s.setEpu x).store = s.store := rfl
@[simp] theorem State.setEpu_free (s : State) (x : Epu) : (s.setEpu x).free = s.free := rfl
@[simp] theorem State.setEpu_pending (s : State) (x : Epu) : (s.setEpu x).pending = s.pending := rfl

@[simp] theorem State.setMrd_epu (s : State) (x : Mrd) : (s.setMrd x).epu = s.epu := rfl
@[simp] theorem State.setMrd_mrd (s : State) (x : Mrd) : (s.setMrd x).mrd = x := rfl
@[simp] theorem State.setMrd_rtk (s : State) (x : Mrd) : (s.setMrd x).rtk = s.rtk := rfl
@[simp] theorem State.setMrd_rst (s : State) (x : Mrd) : (s.setMrd x).rst = s.rst := rfl
@[simp] theorem State.setMrd_rlu (s : State) (x : Mrd) : (s.setMrd x).rlu = s.rlu := rfl
@[simp] theorem State.setMrd_tou (s : State) (x : Mrd) : (s.setMrd x).tou = s.tou := rfl
@[simp] theorem State.setMrd_emc (s : State) (x : Mrd) : (s.setMrd x).emc = s.emc := rfl
@[simp] theorem State.setMrd_shu (s : State) (x : Mrd) : (s.setMrd x).shu = s.shu := rfl
@[simp] theorem State.setMrd_wnc (s : State) (x : Mrd) : (s.setMrd x).wnc = s.wnc := rfl
@[simp] theorem State.setMrd_gru (s : State) (x : Mrd) : (s.setMrd x).gru = s.gru := rfl
@[simp] theorem State.setMrd_lbu (s : State) (x : Mrd) : (s.setMrd x).lbu = s.lbu := rfl
@[simp] theorem State.setMrd_link (s : State) (x : Mrd) : (s.setMrd x).link = s.link := rfl
@[simp] theorem State.setMrd_job (s : State) (x : Mrd) : (s.setMrd x).job = s.job := rfl
@[simp] theorem State.setMrd_act (s : State) (x : Mrd) : (s.setMrd x).act = s.act := rfl
@[simp] theorem State.setMrd_store (s : State) (x : Mrd) : (s.setMrd x).store = s.store := rfl
@[simp] theorem State.setMrd_free (s : State) (x : Mrd) : (s.setMrd x).free = s.free := rfl
@[simp] theorem State.setMrd_pending (s : State) (x : Mrd) : (s.setMrd x).pending = s.pending := rfl

@[simp] theorem State.setRtk_epu (s : State) (x : Rtk) : (s.setRtk x).epu = s.epu := rfl
@[simp] theorem State.setRtk_mrd (s : State) (x : Rtk) : (s.setRtk x).mrd = s.mrd := rfl
@[simp] theorem State.setRtk_rtk (s : State) (x : Rtk) : (s.setRtk x).rtk = x := rfl
@[simp] theorem State.setRtk_rst (s : State) (x : Rtk) : (s.setRtk x).rst = s.rst := rfl
@[simp] theorem State.setRtk_rlu (s : State) (x : Rtk) : (s.setRtk x).rlu = s.rlu := rfl
@[simp] theorem State.setRtk_tou (s : State) (x : Rtk) : (s.setRtk x).tou = s.tou := rfl
@[simp] theorem State.setRtk_emc (s : State) (x : Rtk) : (s.setRtk x).emc = s.emc := rfl
@[simp] theorem State.setRtk_shu (s : State) (x : Rtk) : (s.setRtk x).shu = s.shu := rfl
@[simp] theorem State.setRtk_wnc (s : State) (x : Rtk) : (s.setRtk x).wnc = s.wnc := rfl
@[simp] theorem State.setRtk_gru (s : State) (x : Rtk) : (s.setRtk x).gru = s.gru := rfl
@[simp] theorem State.setRtk_lbu (s : State) (x : Rtk) : (s.setRtk x).lbu = s.lbu := rfl
@[simp] theorem State.setRtk_link (s : State) (x : Rtk) : (s.setRtk x).link = s.link := rfl
@[simp] theorem State.setRtk_job (s : State) (x : Rtk) : (s.setRtk x).job = s.job := rfl
@[simp] theorem State.setRtk_act (s : State) (x : Rtk) : (s.setRtk x).act = s.act := rfl
@[simp] theorem State.setRtk_store (s : State) (x : Rtk) : (s.setRtk x).store = s.store := rfl
@[simp] theorem State.setRtk_free (s : State) (x : Rtk) : (s.setRtk x).free = s.free := rfl
@[simp] theorem State.setRtk_pending (s : State) (x : Rtk) : (s.setRtk x).pending = s.pending := rfl

@[simp] theorem State.setRst_epu (s : State) (x : Rst) : (s.setRst x).epu = s.epu := rfl
@[simp] theorem State.setRst_mrd (s : State) (x : Rst) : (s.setRst x).mrd = s.mrd := rfl
@[simp] theorem State.setRst_rtk (s : State) (x : Rst) : (s.setRst x).rtk = s.rtk := rfl
@[simp] theorem State.setRst_rst (s : State) (x : Rst) : (s.setRst x).rst = x := rfl
@[simp] theorem State.setRst_rlu (s : State) (x : Rst) : (s.setRst x).rlu = s.rlu := rfl
@[simp] theorem State.setRst_tou (s : State) (x : Rst) : (s.setRst x).tou = s.tou := rfl
@[simp] theorem State.setRst_emc (s : State) (x : Rst) : (s.setRst x).emc = s.emc := rfl
@[simp] theorem State.setRst_shu (s : State) (x : Rst) : (s.setRst x).shu = s.shu := rfl
@[simp] theorem State.setRst_wnc (s : State) (x : Rst) : (s.setRst x).wnc = s.wnc := rfl
@[simp] theorem State.setRst_gru (s : State) (x : Rst) : (s.setRst x).gru = s.gru := rfl
@[simp] theorem State.setRst_lbu (s : State) (x : Rst) : (s.setRst x).lbu = s.lbu := rfl
@[simp] theorem State.setRst_link (s : State) (x : Rst) : (s.setRst x).link = s.link := rfl
@[simp] theorem State.setRst_job (s : State) (x : Rst) : (s.setRst x).job = s.job := rfl
@[simp] theorem State.setRst_act (s : State) (x : Rst) : (s.setRst x).act = s.act := rfl
@[simp] theorem State.setRst_store (s : State) (x : Rst) : (s.setRst x).store = s.store := rfl
@[simp] theorem State.setRst_free (s : State) (x : Rst) : (s.setRst x).free = s.free := rfl
@[simp] theorem State.setRst_pending (s : State) (x : Rst) : (s.setRst x).pending = s.pending := rfl

@[simp] theorem State.setRlu_epu (s : State) (x : Rlu) : (s.setRlu x).epu = s.epu := rfl
@[simp] theorem State.setRlu_mrd (s : State) (x : Rlu) : (s.setRlu x).mrd = s.mrd := rfl
@[simp] theorem State.setRlu_rtk (s : State) (x : Rlu) : (s.setRlu x).rtk = s.rtk := rfl
@[simp] theorem State.setRlu_rst (s : State) (x : Rlu) : (s.setRlu x).rst = s.rst := rfl
@[simp] theorem State.setRlu_rlu (s : State) (x : Rlu) : (s.setRlu x).rlu = x := rfl
@[simp] theorem State.setRlu_tou (s : State) (x : Rlu) : (s.setRlu x).tou = s.tou := rfl
@[simp] theorem State.setRlu_emc (s : State) (x : Rlu) : (s.setRlu x).emc = s.emc := rfl
@[simp] theorem State.setRlu_shu (s : State) (x : Rlu) : (s.setRlu x).shu = s.shu := rfl
@[simp] theorem State.setRlu_wnc (s : State) (x : Rlu) : (s.setRlu x).wnc = s.wnc := rfl
@[simp] theorem State.setRlu_gru (s : State) (x : Rlu) : (s.setRlu x).gru = s.gru := rfl
@[simp] theorem State.setRlu_lbu (s : State) (x : Rlu) : (s.setRlu x).lbu = s.lbu := rfl
@[simp] theorem State.setRlu_link (s : State) (x : Rlu) : (s.setRlu x).link = s.link := rfl
@[simp] theorem State.setRlu_job (s : State) (x : Rlu) : (s.setRlu x).job = s.job := rfl
@[simp] theorem State.setRlu_act (s : State) (x : Rlu) : (s.setRlu x).act = s.act := rfl
@[simp] theorem State.setRlu_store (s : State) (x : Rlu) : (s.setRlu x).store = s.store := rfl
@[simp] theorem State.setRlu_free (s : State) (x : Rlu) : (s.setRlu x).free = s.free := rfl
@[simp] theorem State.setRlu_pending (s : State) (x : Rlu) : (s.setRlu x).pending = s.pending := rfl

@[simp] theorem State.setTou_epu (s : State) (x : Tou) : (s.setTou x).epu = s.epu := rfl
@[simp] theorem State.setTou_mrd (s : State) (x : Tou) : (s.setTou x).mrd = s.mrd := rfl
@[simp] theorem State.setTou_rtk (s : State) (x : Tou) : (s.setTou x).rtk = s.rtk := rfl
@[simp] theorem State.setTou_rst (s : State) (x : Tou) : (s.setTou x).rst = s.rst := rfl
@[simp] theorem State.setTou_rlu (s : State) (x : Tou) : (s.setTou x).rlu = s.rlu := rfl
@[simp] theorem State.setTou_tou (s : State) (x : Tou) : (s.setTou x).tou = x := rfl
@[simp] theorem State.setTou_emc (s : State) (x : Tou) : (s.setTou x).emc = s.emc := rfl
@[simp] theorem State.setTou_shu (s : State) (x : Tou) : (s.setTou x).shu = s.shu := rfl
@[simp] theorem State.setTou_wnc (s : State) (x : Tou) : (s.setTou x).wnc = s.wnc := rfl
@[simp] theorem State.setTou_gru (s : State) (x : Tou) : (s.setTou x).gru = s.gru := rfl
@[simp] theorem State.setTou_lbu (s : State) (x : Tou) : (s.setTou x).lbu = s.lbu := rfl
@[simp] theorem State.setTou_link (s : State) (x : Tou) : (s.setTou x).link = s.link := rfl
@[simp] theorem State.setTou_job (s : State) (x : Tou) : (s.setTou x).job = s.job := rfl
@[simp] theorem State.setTou_act (s : State) (x : Tou) : (s.setTou x).act = s.act := rfl
@[simp] theorem State.setTou_store (s : State) (x : Tou) : (s.setTou x).store = s.store := rfl
@[simp] theorem State.setTou_free (s : State) (x : Tou) : (s.setTou x).free = s.free := rfl
@[simp] theorem State.setTou_pending (s : State) (x : Tou) : (s.setTou x).pending = s.pending := rfl

@[simp] theorem State.setEmc_epu (s : State) (x : Emc) : (s.setEmc x).epu = s.epu := rfl
@[simp] theorem State.setEmc_mrd (s : State) (x : Emc) : (s.setEmc x).mrd = s.mrd := rfl
@[simp] theorem State.setEmc_rtk (s : State) (x : Emc) : (s.setEmc x).rtk = s.rtk := rfl
@[simp] theorem State.setEmc_rst (s : State) (x : Emc) : (s.setEmc x).rst = s.rst := rfl
@[simp] theorem State.setEmc_rlu (s : State) (x : Emc) : (s.setEmc x).rlu = s.rlu := rfl
@[simp] theorem State.setEmc_tou (s : State) (x : Emc) : (s.setEmc x).tou = s.tou := rfl
@[simp] theorem State.setEmc_emc (s : State) (x : Emc) : (s.setEmc x).emc = x := rfl
@[simp] theorem State.setEmc_shu (s : State) (x : Emc) : (s.setEmc x).shu = s.shu := rfl
@[simp] theorem State.setEmc_wnc (s : State) (x : Emc) : (s.setEmc x).wnc = s.wnc := rfl
@[simp] theorem State.setEmc_gru (s : State) (x : Emc) : (s.setEmc x).gru = s.gru := rfl
@[simp] theorem State.setEmc_lbu (s : State) (x : Emc) : (s.setEmc x).lbu = s.lbu := rfl
@[simp] theorem State.setEmc_link (s : State) (x : Emc) : (s.setEmc x).link = s.link := rfl
@[simp] theorem State.setEmc_job (s : State) (x : Emc) : (s.setEmc x).job = s.job := rfl
@[simp] theorem State.setEmc_act (s : State) (x : Emc) : (s.setEmc x).act = s.act := rfl
@[simp] theorem State.setEmc_store (s : State) (x : Emc) : (s.setEmc x).store = s.store := rfl
@[simp] theorem State.setEmc_free (s : State) (x : Emc) : (s.setEmc x).free = s.free := rfl
@[simp] theorem State.setEmc_pending (s : State) (x : Emc) : (s.setEmc x).pending = s.pending := rfl

@[simp] theorem State.setShu_epu (s : State) (x : Shu) : (s.setShu x).epu = s.epu := rfl
@[simp] theorem State.setShu_mrd (s : State) (x : Shu) : (s.setShu x).mrd = s.mrd := rfl
@[simp] theorem State.setShu_rtk (s : State) (x : Shu) : (s.setShu x).rtk = s.rtk := rfl
@[simp] theorem State.setShu_rst (s : State) (x : Shu) : (s.setShu x).rst = s.rst := rfl
@[simp] theorem State.setShu_rlu (s : State) (x : Shu) : (s.setShu x).rlu = s.rlu := rfl
@[simp] theorem State.setShu_tou (s : State) (x : Shu) : (s.setShu x).tou = s.tou := rfl
@[simp] theorem State.setShu_emc (s : State) (x : Shu) : (s.setShu x).emc = s.emc := rfl
@[simp] theorem State.setShu_shu (s : State) (x : Shu) : (s.setShu x).shu = x := rfl
@[simp] theorem State.setShu_wnc (s : State) (x : Shu) : (s.setShu x).wnc = s.wnc := rfl
@[simp] theorem State.setShu_gru (s : State) (x : Shu) : (s.setShu x).gru = s.gru := rfl
@[simp] theorem State.setShu_lbu (s : State) (x : Shu) : (s.setShu x).lbu = s.lbu := rfl
@[simp] theorem State.setShu_link (s : State) (x : Shu) : (s.setShu x).link = s.link := rfl
@[simp] theorem State.setShu_job (s : State) (x : Shu) : (s.setShu x).job = s.job := rfl
@[simp] theorem State.setShu_act (s : State) (x : Shu) : (s.setShu x).act = s.act := rfl
@[simp] theorem State.setShu_store (s : State) (x : Shu) : (s.setShu x).store = s.store := rfl
@[simp] theorem State.setShu_free (s : State) (x : Shu) : (s.setShu x).free = s.free := rfl
@[simp] theorem State.setShu_pending (s : State) (x : Shu) : (s.setShu x).pending = s.pending := rfl

@[simp] theorem State.setWnc_epu (s : State) (x : Wnc) : (s.setWnc x).epu = s.epu := rfl
@[simp] theorem State.setWnc_mrd (s : State) (x : Wnc) : (s.setWnc x).mrd = s.mrd := rfl
@[simp] theorem State.setWnc_rtk (s : State) (x : Wnc) : (s.setWnc x).rtk = s.rtk := rfl
@[simp] theorem State.setWnc_rst (s : State) (x : Wnc) : (s.setWnc x).rst = s.rst := rfl
@[simp] theorem State.setWnc_rlu (s : State) (x : Wnc) : (s.setWnc x).rlu = s.rlu := rfl
@[simp] theorem State.setWnc_tou (s : State) (x : Wnc) : (s.setWnc x).tou = s.tou := rfl
@[simp] theorem State.setWnc_emc (s : State) (x : Wnc) : (s.setWnc x).emc = s.emc := rfl
@[simp] theorem State.setWnc_shu (s : State) (x : Wnc) : (s.setWnc x).shu = s.shu := rfl
@[simp] theorem State.setWnc_wnc (s : State) (x : Wnc) : (s.setWnc x).wnc = x := rfl
@[simp] theorem State.setWnc_gru (s : State) (x : Wnc) : (s.setWnc x).gru = s.gru := rfl
@[simp] theorem State.setWnc_lbu (s : State) (x : Wnc) : (s.setWnc x).lbu = s.lbu := rfl
@[simp] theorem State.setWnc_link (s : State) (x : Wnc) : (s.setWnc x).link = s.link := rfl
@[simp] theorem State.setWnc_job (s : State) (x : Wnc) : (s.setWnc x).job = s.job := rfl
@[simp] theorem State.setWnc_act (s : State) (x : Wnc) : (s.setWnc x).act = s.act := rfl
@[simp] theorem State.setWnc_store (s : State) (x : Wnc) : (s.setWnc x).store = s.store := rfl
@[simp] theorem State.setWnc_free (s : State) (x : Wnc) : (s.setWnc x).free = s.free := rfl
@[simp] theorem State.setWnc_pending (s : State) (x : Wnc) : (s.setWnc x).pending = s.pending := rfl

@[simp] theorem State.setGru_epu (s : State) (x : Gru) : (s.setGru x).epu = s.epu := rfl
@[simp] theorem State.setGru_mrd (s : State) (x : Gru) : (s.setGru x).mrd = s.mrd := rfl
@[simp] theorem State.setGru_rtk (s : State) (x : Gru) : (s.setGru x).rtk = s.rtk := rfl
@[simp] theorem State.setGru_rst (s : State) (x : Gru) : (s.setGru x).rst = s.rst := rfl
@[simp] theorem State.setGru_rlu (s : State) (x : Gru) : (s.setGru x).rlu = s.rlu := rfl
@[simp] theorem State.setGru_tou (s : State) (x : Gru) : (s.setGru x).tou = s.tou := rfl
@[simp] theorem State.setGru_emc (s : State) (x : Gru) : (s.setGru x).emc = s.emc := rfl
@[simp] theorem State.setGru_shu (s : State) (x : Gru) : (s.setGru x).shu = s.shu := rfl
@[simp] theorem State.setGru_wnc (s : State) (x : Gru) : (s.setGru x).wnc = s.wnc := rfl
@[simp] theorem State.setGru_gru (s : State) (x : Gru) : (s.setGru x).gru = x := rfl
@[simp] theorem State.setGru_lbu (s : State) (x : Gru) : (s.setGru x).lbu = s.lbu := rfl
@[simp] theorem State.setGru_link (s : State) (x : Gru) : (s.setGru x).link = s.link := rfl
@[simp] theorem State.setGru_job (s : State) (x : Gru) : (s.setGru x).job = s.job := rfl
@[simp] theorem State.setGru_act (s : State) (x : Gru) : (s.setGru x).act = s.act := rfl
@[simp] theorem State.setGru_store (s : State) (x : Gru) : (s.setGru x).store = s.store := rfl
@[simp] theorem State.setGru_free (s : State) (x : Gru) : (s.setGru x).free = s.free := rfl
@[simp] theorem State.setGru_pending (s : State) (x : Gru) : (s.setGru x).pending = s.pending := rfl

@[simp] theorem State.setLbu_epu (s : State) (x : Lbu) : (s.setLbu x).epu = s.epu := rfl
@[simp] theorem State.setLbu_mrd (s : State) (x : Lbu) : (s.setLbu x).mrd = s.mrd := rfl
@[simp] theorem State.setLbu_rtk (s : State) (x : Lbu) : (s.setLbu x).rtk = s.rtk := rfl
@[simp] theorem State.setLbu_rst (s : State) (x : Lbu) : (s.setLbu x).rst = s.rst := rfl
@[simp] theorem State.setLbu_rlu (s : State) (x : Lbu) : (s.setLbu x).rlu = s.rlu := rfl
@[simp] theorem State.setLbu_tou (s : State) (x : Lbu) : (s.setLbu x).tou = s.tou := rfl
@[simp] theorem State.setLbu_emc (s : State) (x : Lbu) : (s.setLbu x).emc = s.emc := rfl
@[simp] theorem State.setLbu_shu (s : State) (x : Lbu) : (s.setLbu x).shu = s.shu := rfl
@[simp] theorem State.setLbu_wnc (s : State) (x : Lbu) : (s.setLbu x).wnc = s.wnc := rfl
@[simp] theorem State.setLbu_gru (s : State) (x : Lbu) : (s.setLbu x).gru = s.gru := rfl
@[simp] theorem State.setLbu_lbu (s : State) (x : Lbu) : (s.setLbu x).lbu = x := rfl
@[simp] theorem State.setLbu_link (s : State) (x : Lbu) : (s.setLbu x).link = s.link := rfl
@[simp] theorem State.setLbu_job (s : State) (x : Lbu) : (s.setLbu x).job = s.job := rfl
@[simp] theorem State.setLbu_act (s : State) (x : Lbu) : (s.setLbu x).act = s.act := rfl
@[simp] theorem State.setLbu_store (s : State) (x : Lbu) : (s.setLbu x).store = s.store := rfl
@[simp] theorem State.setLbu_free (s : State) (x : Lbu) : (s.setLbu x).free = s.free := rfl
@[simp] theorem State.setLbu_pending (s : State) (x : Lbu) : (s.setLbu x).pending = s.pending := rfl

@[simp] theorem State.setLink_epu (s : State) (x : Link) : (s.setLink x).epu = s.epu := rfl
@[simp] theorem State.setLink_mrd (s : State) (x : Link) : (s.setLink x).mrd = s.mrd := rfl
@[simp] theorem State.setLink_rtk (s : State) (x : Link) : (s.setLink x).rtk = s.rtk := rfl
@[simp] theorem State.setLink_rst (s : State) (x : Link) : (s.setLink x).rst = s.rst := rfl
@[simp] theorem State.setLink_rlu (s : State) (x : Link) : (s.setLink x).rlu = s.rlu := rfl
@[simp] theorem State.setLink_tou (s : State) (x : Link) : (s.setLink x).tou = s.tou := rfl
@[simp] theorem State.setLink_emc (s : State) (x : Link) : (s.setLink x).emc = s.emc := rfl
@[simp] theorem State.setLink_shu (s : State) (x : Link) : (s.setLink x).shu = s.shu := rfl
@[simp] theorem State.setLink_wnc (s : State) (x : Link) : (s.setLink x).wnc = s.wnc := rfl
@[simp] theorem State.setLink_gru (s : State) (x : Link) : (s.setLink x).gru = s.gru := rfl
@[simp] theorem State.setLink_lbu (s : State) (x : Link) : (s.setLink x).lbu = s.lbu := rfl
@[simp] theorem State.setLink_link (s : State) (x : Link) : (s.setLink x).link = x := rfl
@[simp] theorem State.setLink_job (s : State) (x : Link) : (s.setLink x).job = s.job := rfl
@[simp] theorem State.setLink_act (s : State) (x : Link) : (s.setLink x).act = s.act := rfl
@[simp] theorem State.setLink_store (s : State) (x : Link) : (s.setLink x).store = s.store := rfl
@[simp] theorem State.setLink_free (s : State) (x : Link) : (s.setLink x).free = s.free := rfl
@[simp] theorem State.setLink_pending (s : State) (x : Link) : (s.setLink x).pending = s.pending := rfl

@[simp] theorem State.setJob_epu (s : State) (x : JobCtl) : (s.setJob x).epu = s.epu := rfl
@[simp] theorem State.setJob_mrd (s : State) (x : JobCtl) : (s.setJob x).mrd = s.mrd := rfl
@[simp] theorem State.setJob_rtk (s : State) (x : JobCtl) : (s.setJob x).rtk = s.rtk := rfl
@[simp] theorem State.setJob_rst (s : State) (x : JobCtl) : (s.setJob x).rst = s.rst := rfl
@[simp] theorem State.setJob_rlu (s : State) (x : JobCtl) : (s.setJob x).rlu = s.rlu := rfl
@[simp] theorem State.setJob_tou (s : State) (x : JobCtl) : (s.setJob x).tou = s.tou := rfl
@[simp] theorem State.setJob_emc (s : State) (x : JobCtl) : (s.setJob x).emc = s.emc := rfl
@[simp] theorem State.setJob_shu (s : State) (x : JobCtl) : (s.setJob x).shu = s.shu := rfl
@[simp] theorem State.setJob_wnc (s : State) (x : JobCtl) : (s.setJob x).wnc = s.wnc := rfl
@[simp] theorem State.setJob_gru (s : State) (x : JobCtl) : (s.setJob x).gru = s.gru := rfl
@[simp] theorem State.setJob_lbu (s : State) (x : JobCtl) : (s.setJob x).lbu = s.lbu := rfl
@[simp] theorem State.setJob_link (s : State) (x : JobCtl) : (s.setJob x).link = s.link := rfl
@[simp] theorem State.setJob_job (s : State) (x : JobCtl) : (s.setJob x).job = x := rfl
@[simp] theorem State.setJob_act (s : State) (x : JobCtl) : (s.setJob x).act = s.act := rfl
@[simp] theorem State.setJob_store (s : State) (x : JobCtl) : (s.setJob x).store = s.store := rfl
@[simp] theorem State.setJob_free (s : State) (x : JobCtl) : (s.setJob x).free = s.free := rfl
@[simp] theorem State.setJob_pending (s : State) (x : JobCtl) : (s.setJob x).pending = s.pending := rfl

@[simp] theorem State.setAct_epu (s : State) (x : JobSettings) : (s.setAct x).epu = s.epu := rfl
@[simp] theorem State.setAct_mrd (s : State) (x : JobSettings) : (s.setAct x).mrd = s.mrd := rfl
@[simp] theorem State.setAct_rtk (s : State) (x : JobSettings) : (s.setAct x).rtk = s.rtk := rfl
@[simp] theorem State.setAct_rst (s : State) (x : JobSettings) : (s.setAct x).rst = s.rst := rfl
@[simp] theorem State.setAct_rlu (s : State) (x : JobSettings) : (s.setAct x).rlu = s.rlu := rfl
@[simp] theorem State.setAct_tou (s : State) (x : JobSettings) : (s.setAct x).tou = s.tou := rfl
@[simp] theorem State.setAct_emc (s : State) (x : JobSettings) : (s.setAct x).emc = s.emc := rfl
@[simp] theorem State.setAct_shu (s : State) (x : JobSettings) : (s.setAct x).shu = s.shu := rfl
@[simp] theorem State.setAct_wnc (s : State) (x : JobSettings) : (s.setAct x).wnc = s.wnc := rfl
@[simp] theorem State.setAct_gru (s : State) (x : JobSettings) : (s.setAct x).gru = s.gru := rfl
@[simp] theorem State.setAct_lbu (s : State) (x : JobSettings) : (s.setAct x).lbu = s.lbu := rfl
@[simp] theorem State.setAct_link (s : State) (x : JobSettings) : (s.setAct x).link = s.link := rfl
@[simp] theorem State.setAct_job (s : State) (x : JobSettings) : (s.setAct x).job = s.job := rfl
@[simp] theorem State.setAct_act (s : State) (x : JobSettings) : (s.setAct x).act = x := rfl
@[simp] theorem State.setAct_store (s : State) (x : JobSettings) : (s.setAct x).store = s.store := rfl
@[simp] theorem State.setAct_free (s : State) (x : JobSettings) : (s.setAct x).free = s.free := rfl
@[simp] theorem State.setAct_pending (s : State) (x : JobSettings) : (s.setAct x).pending = s.pending := rfl

@[simp] theorem State.setStore_epu (s : State) (x : JobStore) : (s.setStore x).epu = s.epu := rfl
@[simp] theorem State.setStore_mrd (s : State) (x : JobStore) : (s.setStore x).mrd = s.mrd := rfl
@[simp] theorem State.setStore_rtk (s : State) (x : JobStore) : (s.setStore x).rtk = s.rtk := rfl
@[simp] theorem State.setStore_rst (s : State) (x : JobStore) : (s.setStore x).rst = s.rst := rfl
@[simp] theorem State.setStore_rlu (s : State) (x : JobStore) : (s.setStore x).rlu = s.rlu := rfl
@[simp] theorem State.setStore_tou (s : State) (x : JobStore) : (s.setStore x).tou = s.tou := rfl
@[simp] theorem State.setStore_emc (s : State) (x : JobStore) : (s.setStore x).emc = s.emc := rfl
@[simp] theorem State.setStore_shu (s : State) (x : JobStore) : (s.setStore x).shu = s.shu := rfl
@[simp] theorem State.setStore_wnc (s : State) (x : JobStore) : (s.setStore x).wnc = s.wnc := rfl
@[simp] theorem State.setStore_gru (s : State) (x : JobStore) : (s.setStore x).gru = s.gru := rfl
@[simp] theorem State.setStore_lbu (s : State) (x : JobStore) : (s.setStore x).lbu = s.lbu := rfl
@[simp] theorem State.setStore_link (s : State) (x : JobStore) : (s.setStore x).link = s.link := rfl
@[simp] theorem State.setStore_job (s : State) (x : JobStore) : (s.setStore x).job = s.job := rfl
@[simp] theorem State.setStore_act (s : State) (x : JobStore) : (s.setStore x).act = s.act := rfl
@[simp] theorem State.setStore_store (s : State) (x : JobStore) : (s.setStore x).store = x := rfl
@[simp] theorem State.setStore_free (s : State) (x : JobStore) : (s.setStore x).free = s.free := rfl
@[simp] theorem State.setStore_pending (s : State) (x : JobStore) : (s.setStore x).pending = s.pending := rfl

@[simp] theorem State.setFree_epu (s : State) (x : Nat) : (s.setFree x).epu = s.epu := rfl
@[simp] theorem State.setFree_mrd (s : State) (x : Nat) : (s.setFree x).mrd = s.mrd := rfl
@[simp] theorem State.setFree_rtk (s : State) (x : Nat) : (s.setFree x).rtk = s.rtk := rfl
@[simp] theorem State.setFree_rst (s : State) (x : Nat) : (s.setFree x).rst = s.rst := rfl
@[simp] theorem State.setFree_rlu (s : State) (x : Nat) : (s.setFree x).rlu = s.rlu := rfl
@[simp] theorem State.setFree_tou (s : State) (x : Nat) : (s.setFree x).tou = s.tou := rfl
@[simp] theorem State.setFree_emc (s : State) (x : Nat) : (s.setFree x).emc = s.emc := rfl
@[simp] theorem State.setFree_shu (s : State) (x : Nat) : (s.setFree x).shu = s.shu := rfl
@[simp] theorem State.setFree_wnc (s : State) (x : Nat) : (s.setFree x).wnc = s.wnc := rfl
@[simp] theorem State.setFree_gru (s : State) (x : Nat) : (s.setFree x).gru = s.gru := rfl
@[simp] theorem State.setFree_lbu (s : State) (x : Nat) : (s.setFree x).lbu = s.lbu := rfl
@[simp] theorem State.setFree_link (s : State) (x : Nat) : (s.setFree x).link = s.link := rfl
@[simp] theorem State.setFree_job (s : State) (x : Nat) : (s.setFree x).job = s.job := rfl
@[simp] theorem State.setFree_act (s : State) (x : Nat) : (s.setFree x).act = s.act := rfl
@[simp] theorem State.setFree_store (s : State) (x : Nat) : (s.setFree x).store = s.store := rfl
@[simp] theorem State.setFree_free (s : State) (x : Nat) : (s.setFree x).free = x := rfl
@[simp] theorem State.setFree_pending (s : State) (x : Nat) : (s.setFree x).pending = s.pending := rfl

@[simp] theorem State.setPending_epu (s : State) (x : List Instr) : (s.setPending x).epu = s.epu := rfl
@[simp] theorem State.setPending_mrd (s : State) (x : List Instr) : (s.setPending x).mrd = s.mrd := rfl
@[simp] theorem State.setPending_rtk (s : State) (x : List Instr) : (s.setPending x).rtk = s.rtk := rfl
@[simp] theorem State.setPending_rst (s : State) (x : List Instr) : (s.setPending x).rst = s.rst := rfl
@[simp] theorem State.setPending_rlu (s : State) (x : List Instr) : (s.setPending x).rlu = s.rlu := rfl
@[simp] theorem State.setPending_tou (s : State) (x : List Instr) : (s.setPending x).tou = s.tou := rfl
@[simp] theorem State.setPending_emc (s : State) (x : List Instr) : (s.setPending x).emc = s.emc := rfl
@[simp] theorem State.setPending_shu (s : State) (x : List Instr) : (s.setPending x).shu = s.shu := rfl
@[simp] theorem State.setPending_wnc (s : State) (x : List Instr) : (s.setPending x).wnc = s.wnc := rfl
@[simp] theorem State.setPending_gru (s : State) (x : List Instr) : (s.setPending x).gru = s.gru := rfl
@[simp] theorem State.setPending_lbu (s : State) (x : List Instr) : (s.setPending x).lbu = s.lbu := rfl
@[simp] theorem State.setPending_link (s : State) (x : List Instr) : (s.setPending x).link = s.link := rfl
@[simp] theorem State.setPending_job (s : State) (x : List Instr) : (s.setPending x).job = s.job := rfl
@[simp] theorem State.setPending_act (s : State) (x : List Instr) : (s.setPending x).act = s.act := rfl
@[simp] theorem State.setPending_store (s : State) (x : List Instr) : (s.setPending x).store = s.store := rfl
@[simp] theorem State.setPending_free (s : State) (x : List Instr) : (s.setPending x).free = s.free := rfl
@[simp] theorem State.setPending_pending (s : State) (x : List Instr) : (s.setPending x).pending = x := rfl

end Sys2Proof.Machine
end

