-- ==== Sys2Proof/Laws/Ops.lean ====
section
/-! SUPPORT. For each shared operation what it can do, said once: timers, the notice queue and the
transmitter, the splice watch list, the Repeat Store's operations, and the taking of an order. -/

namespace Sys2Proof.Machine

/-! ### Timers (R6) -/

@[simp] theorem Timer.start_reload (t : Timer) (n : Nat) : (t.start n).reload = n := rfl
@[simp] theorem Timer.start_current (t : Timer) (n : Nat) : (t.start n).current = n := rfl
@[simp] theorem Timer.start_running (t : Timer) (n : Nat) : (t.start n).running = true := rfl
@[simp] theorem Timer.start_due (t : Timer) (n : Nat) : (t.start n).due = false := rfl
@[simp] theorem Timer.stop_reload (t : Timer) : t.stop.reload = t.reload := rfl
@[simp] theorem Timer.stop_current (t : Timer) : t.stop.current = 0 := rfl
@[simp] theorem Timer.stop_running (t : Timer) : t.stop.running = false := rfl
@[simp] theorem Timer.stop_due (t : Timer) : t.stop.due = false := rfl
@[simp] theorem Timer.expire_reload (t : Timer) : t.expire.reload = t.reload := rfl
@[simp] theorem Timer.expire_current (t : Timer) : t.expire.current = 0 := rfl
@[simp] theorem Timer.expire_running (t : Timer) : t.expire.running = false := rfl
@[simp] theorem Timer.expire_due (t : Timer) : t.expire.due = false := rfl
@[simp] theorem Timer.setReload_current (t : Timer) (n : Nat) : (t.setReload n).current = t.current := rfl

/-- A unit of the time base keeps the reload, and an idle timer as it is. -/
theorem Timer.tick_reload (t : Timer) : t.tick.reload = t.reload := by
  unfold Timer.tick; repeat' split
  all_goals rfl

/-- A running timer's current value falls by one at a unit of the time base; at 0 it is idle and its
expiry is due. -/
theorem Timer.tick_running (t : Timer) (h : t.running = true) :
    t.tick.current = t.current - 1 ∧ t.tick.running = decide (1 < t.current) ∧
      (t.current ≤ 1 → t.tick.due = true) := by
  unfold Timer.tick
  by_cases hc : t.current ≤ 1
  · simp [h, hc]
  · simp [h, hc]
    omega

/-! ### Counts -/

/-- A count never passes 65,535. -/
theorem bump_le (n k : Nat) : bump n k ≤ countMax := Nat.min_le_right _ _

/-! ### Notices and the transmitter (R175, R176) -/

/-- A notice joins a queue that has room, with the missed count and the time base. -/
theorem Link.push_room (l : Link) (time : BitVec 32) (b : NoticeBody) (h : l.notices.length < noticeCapacity) :
    l.push time b = { l with notices := l.notices ++ [⟨l.missed, time, b⟩], missed := 0 } := by
  simp [Link.push, h]

/-- A notice is dropped and counted when the queue is full. -/
theorem Link.push_full (l : Link) (time : BitVec 32) (b : NoticeBody) (h : noticeCapacity ≤ l.notices.length) :
    l.push time b = { l with missed := bump l.missed } := by
  simp [Link.push, Nat.not_lt.mpr h]

/-- Raising a notice keeps the queue within its capacity. -/
theorem Link.push_length (l : Link) (time : BitVec 32) (b : NoticeBody)
    (h : l.notices.length ≤ noticeCapacity) : (l.push time b).notices.length ≤ noticeCapacity := by
  unfold Link.push
  split
  · simp; omega
  · exact h

/-- The transmitter takes an answer before any notice, one frame at a time. -/
theorem Link.pump_cases (l : Link) :
    l.pump = l ∨
    (l.sending = none ∧ ∃ a as, l.answers = a :: as ∧ l.pump = { l with sending := some (.answer a), answers := as }) ∨
    (l.sending = none ∧ l.answers = [] ∧ ∃ n ns, l.notices = n :: ns ∧
      l.pump = { l with sending := some (.notice n), notices := ns }) := by
  rcases hs : l.sending with _ | x <;> rcases ha : l.answers with _ | ⟨a, as⟩ <;>
    rcases hn : l.notices with _ | ⟨n, ns⟩ <;> simp [Link.pump, hs, ha, hn]

/-- A transmitter that has had its chance takes nothing more. -/
theorem Link.pump_pump (l : Link) : l.pump.pump = l.pump := by
  rcases l.pump_cases with h | ⟨_, a, as, _, hp⟩ | ⟨_, _, n, ns, _, hp⟩
  · rw [h, h]
  · rw [hp]; simp [Link.pump]
  · rw [hp]; simp [Link.pump]

/-- The end of an event leaves nothing to a second one. -/
theorem pump_pump (s : State) : pump (pump s) = pump s := by simp [pump, State.setLink, Link.pump_pump]

/-- The end of an event leaves the orders that wait. -/
theorem pump_orders (s : State) : (pump s).link.orders = s.link.orders := by
  rcases s.link.pump_cases with h | ⟨_, a, as, _, hp⟩ | ⟨_, _, n, ns, _, hp⟩ <;> simp [pump, State.setLink, *]

/-! ### Taking an order (R174) -/

/-- An order that arrives at an empty queue while fewer than 8 answers are held is decided at once. -/
theorem submit_taken {f : Frame} {act : State → State} {s : State} (ha : s.link.answers.length < answerCapacity)
    (ho : s.link.orders = []) : submit f act s = act s := by
  have hm : s.link.mayAnswer = true := by simpa [Link.mayAnswer] using ha
  simp [submit, ho, hm]

/-- An order that finds another one waiting joins the queue, or is answered BUSY. -/
theorem submit_waits {f g : Frame} {rest : List Frame} {act : State → State} {s : State}
    (ho : s.link.orders = g :: rest) : submit f act s = enqueue f s := by
  simp [submit, ho]

/-- With no order waiting there is none to take. -/
theorem serve_nil {s : State} (h : s.link.orders = []) : serve s = s := by simp [serve, h, serveRun]

/-- While 8 answers are held no order is taken. -/
theorem serve_full {s : State} (h : answerCapacity ≤ s.link.answers.length) : serve s = s := by
  have hm : s.link.mayAnswer = false := by simpa [Link.mayAnswer] using h
  unfold serve
  cases s.link.orders.length <;> simp [serveRun, frontOrder, hm]

/-- The order at the front is taken when fewer than 8 answers are held, and the others behind it after it. -/
theorem serve_cons {f : Frame} {rest : List Frame} {s : State} (ha : s.link.answers.length < answerCapacity)
    (ho : s.link.orders = f :: rest) : serve s = serveRun rest.length (takeFront f s) := by
  have hm : s.link.mayAnswer = true := by simpa [Link.mayAnswer] using ha
  simp [serve, serveRun, frontOrder, ho, hm]

/-! ### Emitting steps (R84) -/

/-- An output with no step due stays as it is. -/
theorem Trim.step_notDue {t : Trim} (h : t.due = false) : t.step = t := by simp [Trim.step, h]

/-- With the accumulator below 10,000 nothing is left over from the unit before. -/
theorem Trim.flush_below {t : Trim} (h : t.acc < stepThreshold) : t.flush = t := by
  simp [Trim.flush, Nat.div_eq_of_lt h, Trim.steps]

/-! ### The splice watch list (R108) -/

/-- After a refresh every watched splice holds whether D has passed its lift point. -/
theorem refreshWatch_holds (s : State) {w : Watched} (h : w ∈ (refreshWatch s).emc.watch) :
    w.liftPassed = passed s.d (s.act.emboss.liftPoint w) := by
  simp only [refreshWatch, State.setEmc_emc, List.mem_map] at h
  obtain ⟨x, _, rfl⟩ := h
  rfl

/-- A refresh of a list that holds it already changes nothing. -/
theorem refreshWatch_eq {s : State} (h : ∀ w ∈ s.emc.watch, w.liftPassed = passed s.d (s.act.emboss.liftPoint w)) :
    refreshWatch s = s := by
  have e : s.emc.watch.map (fun w => { w with liftPassed := passed s.d (s.act.emboss.liftPoint w) }) = s.emc.watch :=
    (List.map_congr_left fun w hw => by rw [← h w hw]; rfl).trans (List.map_id _)
  simp [refreshWatch, State.setEmc, e]

/-! ### The Repeat Store (R40 to R58) -/

/-- A write of one part: an orphan, a late write, or the change of the one record. -/
theorem writePart_cases (p : Part) (i : Nat) (f : Record → Record) (s : State) :
    (s.rst.find i = none ∧ writePart p i f s = s.setRst { s.rst with orphans := bump s.rst.orphans }) ∨
    (∃ r, s.rst.find i = some r ∧ r.stage = .closed ∧ writePart p i f s =
      raise (.lateWrite p i r.rollNumber) (s.setRst { s.rst with late := s.rst.late.raise p })) ∨
    (∃ r, s.rst.find i = some r ∧ r.stage ≠ .closed ∧ writePart p i f s = s.setRst (s.rst.update i f)) := by
  unfold writePart
  rcases h : s.rst.find i with _ | r
  · simp
  · by_cases hc : r.stage = .closed <;> simp [hc]

/-- A write keeps the number of records. -/
theorem Rst.update_length (t : Rst) (i : Nat) (f : Record → Record) :
    (t.update i f).records.length = t.records.length := by simp [Rst.update]

/-- A record that joins makes the store one longer. -/
theorem Rst.add_length (t : Rst) (r : Record) : (t.add r).records.length = t.records.length + 1 := by
  simp [Rst.add]

/-- Freeing never makes the store longer. -/
theorem freeFrom_length (p : Record → Bool) (kept gone : Bool) (rs : List Record) :
    (freeFrom p kept gone rs).length ≤ rs.length := by
  induction rs generalizing kept gone with
  | nil => simp [freeFrom]
  | cons r rs ih =>
    unfold freeFrom
    split
    · exact (ih kept true).trans (by simp)
    · simpa using ih true false

/-- A stage request never moves a stage back (R42). -/
theorem Stage.request_rank (a b : Stage) : a.rank ≤ (a.request b).rank := by
  unfold Stage.request; split <;> omega

end Sys2Proof.Machine
end

