-- ==== Sys2Proof/Laws/Codec.lean ====
section
/-! SUPPORT. Little-endian fields: their lengths, and that reading a field back gives the number written. -/

namespace Sys2Proof.Machine

/-- A field has its width. -/
@[simp] theorem le_length (w n : Nat) : (le w n).length = w := by
  induction w generalizing n with
  | zero => rfl
  | succ w ih => simp [le, ih]

/-- A signed field has its width. -/
@[simp] theorem leInt_length (w : Nat) (i : Int) : (leInt w i).length = w := le_length _ _

/-- A field read back is the number modulo its width. -/
theorem fromLe_le (w n : Nat) : fromLe (le w n) = n % 256 ^ w := by
  induction w generalizing n with
  | zero => simp [le, fromLe, Nat.mod_one]
  | succ w ih =>
    have h := Nat.mod_mul (a := 256) (b := 256 ^ w) (x := n)
    rw [Nat.pow_succ', h, le, fromLe, ih, BitVec.toNat_ofNat]

/-- A field that holds its number reads back as that number. -/
theorem fromLe_le_of_lt {w n : Nat} (h : n < 256 ^ w) : fromLe (le w n) = n := by
  rw [fromLe_le, Nat.mod_eq_of_lt h]

/-- A signed field that holds its number reads back as that number. -/
theorem fromLeInt_leInt {w : Nat} {i : Int} (lo : -(256 ^ w : Nat) ≤ 2 * i) (hi : 2 * i < (256 ^ w : Nat)) :
    fromLeInt (leInt w i) = i := by
  have hp : 0 < 256 ^ w := Nat.pow_pos (by decide)
  have h0 := Int.emod_nonneg i (b := ((256 ^ w : Nat) : Int)) (by omega)
  have h1 := Int.emod_lt_of_pos i (b := ((256 ^ w : Nat) : Int)) (by omega)
  have hb : (i % (256 ^ w : Nat)).toNat < 256 ^ w := by omega
  unfold fromLeInt
  rw [leInt_length, leInt, fromLe_le_of_lt hb]
  rcases lt_or_ge i 0 with hi0 | hi0
  · have : i % (256 ^ w : Nat) = i + (256 ^ w : Nat) := by
      rw [← Int.add_emod_right, Int.emod_eq_of_lt (by omega) (by omega)]
    rw [this]
    dsimp only
    split <;> omega
  · have : i % (256 ^ w : Nat) = i := Int.emod_eq_of_lt hi0 (by omega)
    rw [this]
    dsimp only
    split <;> omega

/-- The frame check has two bytes. -/
@[simp] theorem crcBytes_length (bs : List Byte) : (crcBytes bs).length = 2 := rfl

end Sys2Proof.Machine
end

