-- ==== Sys2Proof/Laws/Frames.lean ====
section
/-! SUPPORT. What the work of the blocks on the web leaves alone: the encoders and readers, job control,
the active settings, the job store, the queue of commands, and of the link all but the notice queue and
the missed count. `State.apart` is that part of the state; each lemma says that one operation keeps it. -/

namespace Sys2Proof.Machine

/-- The part of the state that the work of the blocks on the web leaves alone. -/
structure Apart where
  epu : Epu
  mrd : Mrd
  job : JobCtl
  act : JobSettings
  store : JobStore
  pending : List Instr
  framing : Link
deriving DecidableEq, Repr

/-- The link but for its notices. -/
def Link.framing (l : Link) : Link := { l with notices := [], missed := 0 }

/-- The part of a state that the work of the blocks on the web leaves alone. -/
def State.apart (s : State) : Apart := ⟨s.epu, s.mrd, s.job, s.act, s.store, s.pending, s.link.framing⟩

theorem epu_of_apart {s t : State} (h : t.apart = s.apart) : t.epu = s.epu := congrArg Apart.epu h
theorem mrd_of_apart {s t : State} (h : t.apart = s.apart) : t.mrd = s.mrd := congrArg Apart.mrd h
theorem job_of_apart {s t : State} (h : t.apart = s.apart) : t.job = s.job := congrArg Apart.job h
theorem act_of_apart {s t : State} (h : t.apart = s.apart) : t.act = s.act := congrArg Apart.act h
theorem store_of_apart {s t : State} (h : t.apart = s.apart) : t.store = s.store := congrArg Apart.store h
theorem pending_of_apart {s t : State} (h :
    t.apart = s.apart) : t.pending = s.pending := congrArg Apart.pending h
theorem framing_of_apart {s t : State} (h : t.apart = s.apart) : t.link.framing = s.link.framing :=
  congrArg Apart.framing h

theorem answers_of_apart {s t : State} (h : t.apart = s.apart) : t.link.answers = s.link.answers :=
  show t.link.framing.answers = s.link.framing.answers from congrArg Link.answers (framing_of_apart h)
theorem orders_of_apart {s t : State} (h : t.apart = s.apart) : t.link.orders = s.link.orders :=
  show t.link.framing.orders = s.link.framing.orders from congrArg Link.orders (framing_of_apart h)
theorem sending_of_apart {s t : State} (h : t.apart = s.apart) : t.link.sending = s.link.sending :=
  show t.link.framing.sending = s.link.framing.sending from congrArg Link.sending (framing_of_apart h)

@[simp] theorem State.setRtk_apart (s : State) (x : Rtk) : (s.setRtk x).apart = s.apart := rfl
@[simp] theorem State.setRst_apart (s : State) (x : Rst) : (s.setRst x).apart = s.apart := rfl
@[simp] theorem State.setRlu_apart (s : State) (x : Rlu) : (s.setRlu x).apart = s.apart := rfl
@[simp] theorem State.setTou_apart (s : State) (x : Tou) : (s.setTou x).apart = s.apart := rfl
@[simp] theorem State.setEmc_apart (s : State) (x : Emc) : (s.setEmc x).apart = s.apart := rfl
@[simp] theorem State.setShu_apart (s : State) (x : Shu) : (s.setShu x).apart = s.apart := rfl
@[simp] theorem State.setWnc_apart (s : State) (x : Wnc) : (s.setWnc x).apart = s.apart := rfl
@[simp] theorem State.setGru_apart (s : State) (x : Gru) : (s.setGru x).apart = s.apart := rfl
@[simp] theorem State.setLbu_apart (s : State) (x : Lbu) : (s.setLbu x).apart = s.apart := rfl
@[simp] theorem State.setFree_apart (s : State) (x : Nat) : (s.setFree x).apart = s.apart := rfl

@[simp] theorem Link.push_framing (l : Link) (time : BitVec 32) (b : NoticeBody) :
    (l.push time b).framing = l.framing := by
  unfold Link.push; split <;> rfl

@[simp] theorem raise_apart (b : NoticeBody) (s : State) : (raise b s).apart = s.apart := by
  simp [State.apart, raise]

@[simp] theorem writePart_apart (p : Part) (i : Nat) (f : Record → Record) (s : State) :
    (writePart p i f s).apart = s.apart := by
  rcases writePart_cases p i f s with ⟨_, h⟩ | ⟨_, _, _, h⟩ | ⟨_, _, _, h⟩ <;> simp [h]

/-- A sweep over a list keeps what each of its steps keeps. -/
theorem foldl_apart {α : Type} (f : State → α → State) (h : ∀ s a, (f s a).apart = s.apart) (xs : List α)
    (s : State) : (xs.foldl f s).apart = s.apart := by
  induction xs generalizing s with
  | nil => rfl
  | cons x xs ih => rw [List.foldl_cons, ih, h]

/-! ### Trim -/

@[simp] theorem setTrim_apart (i : Fin 8) (t : Trim) (s : State) : (setTrim i t s).apart = s.apart := by
  simp [setTrim]

@[simp] theorem mergeSteps_apart (i : Fin 8) (steps : Int) (source : Option (Fin 8)) (s : State) :
    (mergeSteps i steps source s).apart = s.apart := by
  unfold mergeSteps; simp only []; split <;> simp

@[simp] theorem correctTrim_apart (i : Fin 8) (c : Int) (s : State) :
    (correctTrim i c s).apart = s.apart := by
  simp [correctTrim]

@[simp] theorem discardTrim_apart (i : Fin 8) (s : State) : (discardTrim i s).apart = s.apart := by
  simp [discardTrim]

@[simp] theorem sendDraw_apart (ppm : Int) (s : State) : (sendDraw ppm s).apart = s.apart := by
  simp [sendDraw]

/-! ### Loops -/

@[simp] theorem setLoop_apart (i : Fin 8) (l : Loop) (s : State) : (setLoop i l s).apart = s.apart := by
  simp [setLoop]

@[simp] theorem loopNotice_apart (i : Fin 8) (old : LoopState) (index : Nat) (x : Option
    (LoopState × LoopCause)) (s : State) : (loopNotice i old index x s).apart = s.apart := by
  rcases x with _ | ⟨new, cause⟩ <;> simp [loopNotice]

@[simp] theorem takeInput_apart (i : Fin 8) (x : LoopInput) (index : Nat) (s : State) :
    (takeInput i x index s).apart = s.apart := by
  unfold takeInput
  dsimp only
  split <;> simp

/-- The loops of the stations keep it, whatever correction mask they have collected. -/
@[simp] theorem loopsTake_apart (r : Record) (errors : Option (Vector (Option Int) 7)) (ps : List (Fin 7))
    (acc : State × Vector Bool 7) : (loopsTake r errors ps acc).1.apart = acc.1.apart := by
  induction ps generalizing acc with
  | nil => rfl
  | cons p ps ih => obtain ⟨s, mask⟩ := acc; simp [loopsTake, ih]

@[simp] theorem rluTake_apart (r : Record) (marks : Option (Mark × Vector (Option Mark) 7)) (s : State) :
    (rluTake r marks s).apart = s.apart := by
  unfold rluTake; simp only []; split <;> simp

@[simp] theorem loopLost_apart (i : Fin 8) (s : State) : (loopLost i s).apart = s.apart := by
  unfold loopLost; simp only []; split <;> simp

@[simp] theorem rluLost_apart (s : State) : (rluLost s).apart = s.apart := by
  simp [rluLost, foldl_apart]

@[simp] theorem leaveCoastNotice_apart (i : Fin 8) (old new : LoopState) (s : State) :
    (leaveCoastNotice i old new s).apart = s.apart := by
  unfold leaveCoastNotice; split <;> simp

@[simp] theorem setLoopOff_apart (i : Fin 8) (s : State) : (setLoopOff i s).apart = s.apart := by
  unfold setLoopOff; simp only []; split <;> simp

@[simp] theorem dropLoops_apart (s : State) : (dropLoops s).apart = s.apart := by
  refine foldl_apart _ (fun s i => ?_) _ _
  split <;> simp

@[simp] theorem loopsAbort_apart (s : State) : (loopsAbort s).apart = s.apart := by
  simp [loopsAbort, foldl_apart]

@[simp] theorem loopArm_apart (i : Fin 8) (s : State) : (loopArm i s).apart = s.apart := by
  simp [loopArm]

@[simp] theorem loopsArm_apart (s : State) : (loopsArm s).apart = s.apart := by
  simp [loopsArm, foldl_apart]

/-! ### Grading -/

@[simp] theorem shadeRoll_apart (i : Fin 12) (s : State) : (shadeRoll i s).apart = s.apart := by
  unfold shadeRoll; split <;> simp

@[simp] theorem closeBatch_apart (e : Fin 8) (cause : CloseCause) (s : State) :
    (closeBatch e cause s).apart = s.apart := by
  unfold closeBatch
  repeat' split
  all_goals simp

@[simp] theorem closeJobBatches_apart (s : State) : (closeJobBatches s).apart = s.apart := by
  simp [closeJobBatches, foldl_apart]

@[simp] theorem openBatch_apart (i : Fin 12) (r : Roll) (x : RollShade) (s : State) :
    (openBatch i r x s).apart = s.apart := by
  unfold openBatch
  try dsimp only
  repeat' (first | (with_reducible rfl) | (simp; done) | split)

@[simp] theorem placeBatch_apart (i : Fin 12) (r : Roll) (x : RollShade) (s : State) :
    (placeBatch i r x s).apart = s.apart := by
  unfold placeBatch
  repeat' split
  all_goals simp

@[simp] theorem gradeRoll_apart (i : Fin 12) (s : State) : (gradeRoll i s).apart = s.apart := by
  unfold gradeRoll
  try dsimp only
  repeat' (first | (with_reducible rfl) | (simp; done) | split)

/-! ### Labels -/

@[simp] theorem setLabel_apart (i : Fin 12) (st : LabelStatus) (s : State) :
    (setLabel i st s).apart = s.apart := by
  simp [setLabel]

@[simp] theorem sendHead_apart (event : LabelEvent) (s : State) : (sendHead event s).apart = s.apart := by
  unfold sendHead
  repeat' split
  all_goals simp

@[simp] theorem sendIfIdle_apart (s : State) : (sendIfIdle s).apart = s.apart := by
  unfold sendIfIdle; split <;> simp

@[simp] theorem joinQueue_apart (i : Fin 12) (s : State) : (joinQueue i s).apart = s.apart := by
  simp [joinQueue]

@[simp] theorem labelReport_apart (i : Fin 12) (number : Nat) (st : LabelStatus) (s : State) :
    (labelReport i number st s).apart = s.apart := by
  unfold labelReport
  repeat' split
  all_goals simp

@[simp] theorem finishHead_apart (st : LabelStatus) (event : LabelEvent) (s : State) :
    (finishHead st event s).apart = s.apart := by
  unfold finishHead; split <;> simp

@[simp] theorem faultHead_apart (code : FaultCode) (s : State) : (faultHead code s).apart = s.apart := by
  unfold faultHead; split <;> simp

@[simp] theorem awaitByte_apart (b : Byte) (s : State) : (awaitByte b s).apart = s.apart := by
  unfold awaitByte
  repeat' split
  all_goals simp

@[simp] theorem strayReply_apart (b : Byte) (s : State) : (strayReply b s).apart = s.apart := by
  unfold strayReply; split <;> simp

@[simp] theorem labellerByte_apart (b : Byte) (s : State) : (labellerByte b s).apart = s.apart := by
  unfold labellerByte; split <;> simp

@[simp] theorem labelCr_apart (s : State) : (labelCr s).apart = s.apart := by
  unfold labelCr
  try dsimp only
  repeat' (first | (with_reducible rfl) | (simp; done) | split)

@[simp] theorem replyExpiry_apart (s : State) : (replyExpiry s).apart = s.apart := by
  unfold replyExpiry
  try dsimp only
  repeat' (first | (with_reducible rfl) | (simp; done) | split)

/-! ### Winder -/

@[simp] theorem clearStop_apart (s : State) : (clearStop s).apart = s.apart := by
  unfold clearStop; split <;> simp

@[simp] theorem checkStop_apart (roll : Option Nat) (extra : Nat) (s : State) :
    (checkStop roll extra s).apart = s.apart := by
  unfold checkStop; split <;> simp

@[simp] theorem takeIntoRoll_apart (i : Fin 12) (r : Record) (s : State) :
    (takeIntoRoll i r s).apart = s.apart := by
  unfold takeIntoRoll
  repeat' split
  all_goals simp

@[simp] theorem takeToWaste_apart (r : Record) (s : State) : (takeToWaste r s).apart = s.apart := by
  simp [takeToWaste]

@[simp] theorem wasteBefore_apart (i : Nat) (x : List Record) (s : State) :
    (wasteBefore i x s).apart = s.apart := by
  induction x generalizing s with
  | nil => rfl
  | cons y ys ih => unfold wasteBefore; split <;> simp [ih]

@[simp] theorem holdRecord_apart (r : Record) (s : State) : (holdRecord r s).apart = s.apart := by
  simp [holdRecord]

@[simp] theorem takeAsFollows_apart (f : Follows) (r : Record) (s : State) :
    (takeAsFollows f r s).apart = s.apart := by
  unfold takeAsFollows; split <;> simp

@[simp] theorem takeRecord_apart (r : Record) (s : State) : (takeRecord r s).apart = s.apart := by
  unfold takeRecord
  repeat' split
  all_goals simp

theorem takeNext_apart (s : State) {t : State} (h : takeNext s = some t) : t.apart = s.apart := by
  unfold takeNext at h
  repeat' split at h
  all_goals (cases h; try simp)

@[simp] theorem armCut_apart (kind : CutKind) (closing : Option Nat) (cutPos : Pos) (s : State) :
    (armCut kind closing cutPos s).apart = s.apart := by
  simp [armCut]

@[simp] theorem armRollCut_apart (kind : CutKind) (closing : Option Nat) (cutPos : Pos) (s : State) :
    (armRollCut kind closing cutPos s).apart = s.apart := by
  simp [armRollCut]

theorem armFinal_apart (s : State) {t : State} (h : armFinal s = some t) : t.apart = s.apart := by
  unfold armFinal at h
  repeat' split at h
  all_goals (cases h; try simp)

theorem seekCut_apart (s : State) {t : State} (h : seekCut s = some t) : t.apart = s.apart := by
  unfold seekCut at h
  repeat' split at h
  all_goals first | exact armFinal_apart s h | (cases h; try simp)

theorem replaceLength_apart (a : ArmedCut) (s : State) {t : State} (h : replaceLength a s = some t) :
    t.apart = s.apart := by
  unfold replaceLength at h
  repeat' split at h
  all_goals first | exact armFinal_apart s h | (cases h; try simp)

@[simp] theorem deferStart_apart (i : Nat) (s : State) : (deferStart i s).apart = s.apart := by
  simp [deferStart]

@[simp] theorem passSplice_apart (r : Record) (s : State) : (passSplice r s).apart = s.apart := by
  simp [passSplice]

/-- Naming the start record changes nothing but which record that is. -/
theorem nameStart_eq (s : State) : ∃ x, nameStart s = s.setWnc { s.wnc with start := x } := by
  unfold nameStart
  repeat' split
  all_goals first | exact ⟨_, rfl⟩ | exact ⟨s.wnc.start, rfl⟩

@[simp] theorem nameStart_apart (s : State) : (nameStart s).apart = s.apart := by
  obtain ⟨x, h⟩ := nameStart_eq s
  simp [h]

theorem armStart_apart (s : State) {t : State} (h : armStart s = some t) : t.apart = s.apart := by
  unfold armStart at h
  repeat' split at h
  all_goals (cases h; try simp)

@[simp] theorem takeHeld_apart (i : Fin 12) (x : List Nat) (s : State) :
    (takeHeld i x s).apart = s.apart := by
  induction x generalizing s with
  | nil => rfl
  | cons y ys ih =>
    unfold takeHeld
    repeat' (first | (with_reducible rfl) | (simp [ih]; done) | split)

@[simp] theorem countDeferrals_apart (i : Fin 12) (n : Nat) (s : State) :
    (countDeferrals i n s).apart = s.apart := by
  unfold countDeferrals; simp only []; split <;> simp

@[simp] theorem passHeldClosing_apart (i : Fin 12) (s : State) : (passHeldClosing i s).apart = s.apart := by
  unfold passHeldClosing
  repeat' split
  all_goals simp

@[simp] theorem armLength_apart (i : Fin 12) (s : State) : (armLength i s).apart = s.apart := by
  unfold armLength; split <;> simp

@[simp] theorem startRoll_apart (first : Nat) (start : Pos) (mode : RollMode) (s : State) :
    (startRoll first start mode s).apart = s.apart := by
  unfold startRoll
  repeat' split
  all_goals simp

@[simp] theorem fireKnife_apart (s : State) : (fireKnife s).apart = s.apart := by
  simp [fireKnife]

@[simp] theorem freeWasteRun_apart (s : State) : (freeWasteRun s).apart = s.apart := by
  unfold freeWasteRun; split <;> simp

@[simp] theorem startDue_apart (a : ArmedCut) (s : State) : (startDue a s).apart = s.apart := by
  unfold startDue; split <;> simp

@[simp] theorem takeBefore_apart (i : Fin 12) (a : ArmedCut) (x : List Record) (s : State) :
    (takeBefore i a x s).apart = s.apart := by
  induction x generalizing s with
  | nil => rfl
  | cons y ys ih =>
    unfold takeBefore
    repeat' (first | (with_reducible rfl) | (simp [ih]; done) | split)

@[simp] theorem wasteRoll_apart (i : Fin 12) (roll : Roll) (s : State) :
    (wasteRoll i roll s).apart = s.apart := by
  simp [wasteRoll]

@[simp] theorem cutRoll_apart (i : Fin 12) (cutPos : Pos) (roll : Roll) (s : State) :
    (cutRoll i cutPos roll s).apart = s.apart := by
  simp [cutRoll]

@[simp] theorem fireCut_apart (i : Fin 12) (a : ArmedCut) (s : State) : (fireCut i a s).apart = s.apart := by
  unfold fireCut
  try dsimp only
  repeat' (first | (with_reducible rfl) | (simp; done) | split)

@[simp] theorem deferCut_apart (i : Fin 12) (a : ArmedCut) (s : State) :
    (deferCut i a s).apart = s.apart := by
  unfold deferCut; split <;> simp

@[simp] theorem cutDue_apart (a : ArmedCut) (s : State) : (cutDue a s).apart = s.apart := by
  unfold cutDue
  repeat' split
  all_goals simp

@[simp] theorem endThreading_apart (s : State) : (endThreading s).apart = s.apart := by
  simp [endThreading]

theorem endIfDrained_apart (s : State) {t : State} (h : endIfDrained s = some t) : t.apart = s.apart := by
  unfold endIfDrained at h
  repeat' split at h
  all_goals (cases h; try simp)

/-- Of two things due one is the outcome. -/
theorem orElse_some {a b : Option State} {t : State} (h : orElse a b = some t) : a = some t ∨ b = some t := by
  cases a <;> simp_all [orElse]

theorem wncStep_apart (s : State) {t : State} (h : wncStep s = some t) : t.apart = s.apart := by
  have hn (h : takeNext s = some t) : t.apart = s.apart := takeNext_apart s h
  unfold wncStep at h
  split at h
  · cases h
  · exact hn h
  · exact hn h
  · split at h
    · split at h
      · cases h; simp
      · exact hn h
    · rcases orElse_some h with h | h
      · exact armStart_apart s h
      · rcases orElse_some h with h | h
        · exact hn h
        · exact endIfDrained_apart s h
  all_goals
    split at h
    · rcases orElse_some h with h | h
      · exact replaceLength_apart _ s h
      · split at h
        · cases h; simp
        · exact hn h
    · rcases orElse_some h with h | h
      · exact seekCut_apart s h
      · exact hn h

@[simp] theorem wncRun_apart  (x : Nat) (s : State) : (wncRun x s).apart = s.apart := by
  induction x generalizing s with
  | zero => rfl
  | succ k ih =>
    unfold wncRun
    split
    · rfl
    · rw [ih]; exact wncStep_apart s ‹_›

@[simp] theorem wncSettle_apart (s : State) : (wncSettle s).apart = s.apart := by
  simp [wncSettle]

@[simp] theorem wncDownstream_apart (index : Nat) (keyD : HalfPos) (s : State) :
    (wncDownstream index keyD s).apart = s.apart := by
  simp [wncDownstream]

@[simp] theorem wncSpeed_apart (s : State) : (wncSpeed s).apart = s.apart := by
  unfold wncSpeed; split <;> simp

@[simp] theorem switchLength_apart (i : Fin 12) (roll : Roll) (s : State) :
    (switchLength i roll s).apart = s.apart := by
  unfold switchLength
  try dsimp only
  repeat' (first | (with_reducible rfl) | (simp; done) | split)

@[simp] theorem wncLost_apart (s : State) : (wncLost s).apart = s.apart := by
  unfold wncLost
  repeat' split
  all_goals simp

@[simp] theorem knifeExpiry_apart (s : State) : (knifeExpiry s).apart = s.apart := by
  unfold knifeExpiry
  try dsimp only
  repeat' (first | (with_reducible rfl) | (simp; done) | split)

@[simp] theorem turretFollows_apart (f : Following) (s : State) : (turretFollows f s).apart = s.apart := by
  unfold turretFollows; split <;> simp

@[simp] theorem turretExpiry_apart (s : State) : (turretExpiry s).apart = s.apart := by
  unfold turretExpiry
  try dsimp only
  repeat' (first | (with_reducible rfl) | (simp; done) | split)

@[simp] theorem doffPulse_apart (s : State) : (doffPulse s).apart = s.apart := by
  unfold doffPulse; simp only []; split <;> simp

@[simp] theorem wncJobEnd_apart (s : State) : (wncJobEnd s).apart = s.apart := by
  unfold wncJobEnd; split <;> simp

@[simp] theorem wncArm_apart (s : State) : (wncArm s).apart = s.apart := by
  simp [wncArm]

@[simp] theorem abandonSlot_apart (i : Fin 12) (s : State) : (abandonSlot i s).apart = s.apart := by
  unfold abandonSlot; split <;> simp

@[simp] theorem wncAbort_apart (s : State) : (wncAbort s).apart = s.apart := by
  simp [wncAbort, foldl_apart]

/-! ### Emboss -/

@[simp] theorem setNip_apart (new : NipState) (cause : NipCause) (s : State) :
    (setNip new cause s).apart = s.apart := by
  simp [setNip]

@[simp] theorem liftNip_apart (cause : NipCause) (s : State) : (liftNip cause s).apart = s.apart := by
  unfold liftNip; simp only []; split <;> simp

@[simp] theorem startEngage_apart (cause : NipCause) (s : State) : (startEngage cause s).apart = s.apart := by
  simp [startEngage]

@[simp] theorem tryAuto_apart (s : State) : (tryAuto s).apart = s.apart := by
  unfold tryAuto; split <;> simp

@[simp] theorem nipExpiry_apart (s : State) : (nipExpiry s).apart = s.apart := by
  unfold nipExpiry
  try dsimp only
  repeat' (first | (with_reducible rfl) | (simp; done) | split)

@[simp] theorem nipSpeed_apart (s : State) : (nipSpeed s).apart = s.apart := by
  unfold nipSpeed; split <;> simp

@[simp] theorem watchSplice_apart (stamp : Option Nat) (s : State) :
    (watchSplice stamp s).apart = s.apart := by
  unfold watchSplice
  try dsimp only
  repeat' (first | (with_reducible rfl) | (simp; done) | split)

@[simp] theorem refreshWatch_apart (s : State) : (refreshWatch s).apart = s.apart := rfl

@[simp] theorem liftPoints_apart (s : State) : (liftPoints s).apart = s.apart := by
  simp [liftPoints, foldl_apart]

@[simp] theorem departed_apart (s : State) : (departed s).apart = s.apart := by
  unfold departed; split <;> simp

@[simp] theorem departures_apart  (x : List Watched) (s : State) : (departures x s).apart = s.apart := by
  induction x generalizing s with
  | nil => rfl
  | cons y ys ih =>
    unfold departures
    repeat' (first | (with_reducible rfl) | (simp [ih]; done) | split)

@[simp] theorem watchSweep_apart (s : State) : (watchSweep s).apart = s.apart := by
  simp [watchSweep]

@[simp] theorem writeEmb_apart (index : Nat) (f : Emb → Emb) (s : State) :
    (writeEmb index f s).apart = s.apart := by
  simp [writeEmb]

@[simp] theorem writeDownstream_apart (index : Nat) (x : SeenAt) (s : State) :
    (writeDownstream index x s).apart = s.apart := by
  simp [writeDownstream]

@[simp] theorem leftUnpaired_apart (index : Nat) (nip : Option Bool) (splice : Bool) (s : State) :
    (leftUnpaired index nip splice s).apart = s.apart := by
  unfold leftUnpaired; split <;> simp

@[simp] theorem testPairKey_apart (s : State) : (testPairKey s).apart = s.apart := by
  unfold testPairKey
  repeat' split
  all_goals simp

@[simp] theorem takeStretch_apart (x : Int) (s : State) : (takeStretch x s).apart = s.apart := by
  unfold takeStretch; split <;> simp

@[simp] theorem lengthOf_apart (index : Nat) (seen seenUp : Bool) (keyD : HalfPos) (s : State) :
    (lengthOf index seen seenUp keyD s).apart = s.apart := by
  unfold lengthOf
  try dsimp only
  repeat' (first | (with_reducible rfl) | (simp; done) | split)

@[simp] theorem makeDownstream_apart (r : Record) (seen : Bool) (keyD : HalfPos) (s : State) :
    (makeDownstream r seen keyD s).apart = s.apart := by
  unfold makeDownstream
  try dsimp only
  repeat' (first | (with_reducible rfl) | (simp; done) | split)

@[simp] theorem makeUnseen_apart (r : Record) (s : State) : (makeUnseen r s).apart = s.apart := by
  simp [makeUnseen]

@[simp] theorem passOver_apart  (x : List Record) (s : State) : (passOver x s).apart = s.apart := by
  induction x generalizing s with
  | nil => rfl
  | cons y ys ih =>
    unfold passOver
    repeat' (first | (with_reducible rfl) | (simp [ih]; done) | split)

@[simp] theorem takeEmbossGroup_apart (g : EmbossGroup) (s : State) :
    (takeEmbossGroup g s).apart = s.apart := by
  unfold takeEmbossGroup; simp only []; split <;> simp

@[simp] theorem unseenRun_apart  (x : Nat) (s : State) : (unseenRun x s).apart = s.apart := by
  induction x generalizing s with
  | zero => rfl
  | succ k ih =>
    unfold unseenRun
    repeat' (first | (with_reducible rfl) | (simp [ih]; done) | split)

@[simp] theorem unseenSweep_apart (s : State) : (unseenSweep s).apart = s.apart := by
  unfold unseenSweep; split <;> simp

@[simp] theorem unpairedFiducial_apart (s : State) : (unpairedFiducial s).apart = s.apart := by
  simp [unpairedFiducial]

@[simp] theorem liftForRun_apart (cause : NipCause) (s : State) : (liftForRun cause s).apart = s.apart := by
  simp [liftForRun]

@[simp] theorem rightPairing_apart (k : PairKey) (e : Int) (s : State) :
    (rightPairing k e s).apart = s.apart := by
  unfold rightPairing
  try dsimp only
  repeat' (first | (with_reducible rfl) | (simp; done) | split)

@[simp] theorem wrongPairing_apart (k : PairKey) (s : State) : (wrongPairing k s).apart = s.apart := by
  unfold wrongPairing; simp only []; split <;> simp

@[simp] theorem takeFiducial_apart (f : HalfPos) (s : State) : (takeFiducial f s).apart = s.apart := by
  unfold takeFiducial
  repeat' split
  all_goals simp

@[simp] theorem takeFiducialMark_apart (m : Mark) (s : State) : (takeFiducialMark m s).apart = s.apart := by
  simp [takeFiducialMark]

@[simp] theorem stampRecord_apart (r : Record) (s : State) : (stampRecord r s).apart = s.apart := by
  simp [stampRecord]

@[simp] theorem stampRun_apart  (x : Nat) (s : State) : (stampRun x s).apart = s.apart := by
  induction x generalizing s with
  | zero => rfl
  | succ k ih =>
    unfold stampRun
    repeat' (first | (with_reducible rfl) | (simp [ih]; done) | split)

@[simp] theorem stampSweep_apart (s : State) : (stampSweep s).apart = s.apart := by
  unfold stampSweep; split <;> simp

/-! ### Shade -/

@[simp] theorem headNotices_apart (h : Fin 4) (old new : Head) (seq : Byte) (s : State) :
    (headNotices h old new seq s).apart = s.apart := by
  unfold headNotices
  repeat' split
  all_goals simp

@[simp] theorem endCycle_apart (c : PollCycle) (s : State) : (endCycle c s).apart = s.apart := by
  unfold endCycle; split <;> simp

@[simp] theorem nextPoll_apart (c : PollCycle) (s : State) : (nextPoll c s).apart = s.apart := by
  unfold nextPoll; split <;> simp

@[simp] theorem overrun_apart (c : PollCycle) (s : State) : (overrun c s).apart = s.apart := by
  simp [overrun]

@[simp] theorem shadeTransfer_apart (index : Nat) (keyT : Pos) (s : State) :
    (shadeTransfer index keyT s).apart = s.apart := by
  unfold shadeTransfer
  try dsimp only
  repeat' (first | (with_reducible rfl) | (simp; done) | split)

@[simp] theorem startCycle_apart (t : Trigger) (s : State) : (startCycle t s).apart = s.apart := by
  simp [startCycle]

@[simp] theorem takeTrigger_apart (t : Trigger) (s : State) : (takeTrigger t s).apart = s.apart := by
  unfold takeTrigger; split <;> simp

@[simp] theorem takeTriggers_apart  (x : List Trigger) (s : State) : (takeTriggers x s).apart = s.apart := by
  induction x generalizing s with
  | nil => rfl
  | cons y ys ih =>
    unfold takeTriggers
    repeat' (first | (with_reducible rfl) | (simp [ih]; done) | split)

@[simp] theorem shadeSweep_apart (s : State) : (shadeSweep s).apart = s.apart := by
  simp [shadeSweep]

@[simp] theorem pollSent_apart (s : State) : (pollSent s).apart = s.apart := by
  unfold pollSent
  try dsimp only
  repeat' (first | (with_reducible rfl) | (simp; done) | split)

@[simp] theorem takeAnswer_apart (c : PollCycle) (h : Fin 4) (st : HeadStatus) (bs : List Byte) (s : State) :
    (takeAnswer c h st bs s).apart = s.apart := by
  simp [takeAnswer]

@[simp] theorem completeAnswer_apart (bs : List Byte) (s : State) :
    (completeAnswer bs s).apart = s.apart := by
  unfold completeAnswer
  try dsimp only
  repeat' (first | (with_reducible rfl) | (simp; done) | split)

@[simp] theorem headByte_apart (b : Byte) (s : State) : (headByte b s).apart = s.apart := by
  unfold headByte
  try dsimp only
  repeat' (first | (with_reducible rfl) | (simp; done) | split)

@[simp] theorem headGap_apart (s : State) : (headGap s).apart = s.apart := by
  simp [headGap]

@[simp] theorem headTimeout_apart (s : State) : (headTimeout s).apart = s.apart := by
  unfold headTimeout
  try dsimp only
  repeat' (first | (with_reducible rfl) | (simp; done) | split)

/-! ### Tracker -/

@[simp] theorem setTracking_apart (new : Tracking) (s : State) : (setTracking new s).apart = s.apart := by
  unfold setTracking; split <;> simp

theorem offerKey_apart (c : HalfPos) (s : State) {t : State} (h : offerKey c s = some t) :
    t.apart = s.apart := by
  unfold offerKey at h
  repeat' split at h
  all_goals (cases h; try simp)

@[simp] theorem testSplices_apart (c : HalfPos) (stamp : Option Nat) (s : State) :
    (testSplices c stamp s).apart = s.apart := by
  simp [testSplices]

@[simp] theorem storeRecord_apart (r : Record) (s : State) : (storeRecord r s).apart = s.apart := by
  simp [storeRecord]

@[simp] theorem unrecorded_apart (index : Nat) (s : State) : (unrecorded index s).apart = s.apart := by
  unfold unrecorded; simp only []; split <;> simp

@[simp] theorem takeLength_apart (n : NewRepeat) (s : State) : (takeLength n s).apart = s.apart := by
  unfold takeLength
  repeat' split
  all_goals simp

@[simp] theorem assignIndex_apart (n : NewRepeat) (s : State) : (assignIndex n s).apart = s.apart := by
  unfold assignIndex; simp only []; split <;> simp

@[simp] theorem assign_apart (n : NewRepeat) (s : State) : (assign n s).apart = s.apart := by
  unfold assign
  repeat' split
  all_goals simp

@[simp] theorem assignAll_apart  (x : List NewRepeat) (s : State) : (assignAll x s).apart = s.apart := by
  induction x generalizing s with
  | nil => rfl
  | cons y ys ih =>
    unfold assignAll
    repeat' (first | (with_reducible rfl) | (simp [ih]; done) | split)

@[simp] theorem keyRecord_apart (l : LastKey) (g : KeyGroup) (a : Nat) (s : State) :
    (keyRecord l g a s).apart = s.apart := by
  simp [keyRecord]

@[simp] theorem enterLost_apart (s : State) : (enterLost s).apart = s.apart := by
  simp [enterLost]

@[simp] theorem expireWindow_apart (w : KeyWindow) (s : State) : (expireWindow w s).apart = s.apart := by
  unfold expireWindow
  try dsimp only
  repeat' (first | (with_reducible rfl) | (simp; done) | split)

@[simp] theorem windowSweep_apart (s : State) : (windowSweep s).apart = s.apart := by
  unfold windowSweep; split <;> simp

@[simp] theorem releaseClaim_apart (s : State) : (releaseClaim s).apart = s.apart := by
  unfold releaseClaim; split <;> simp

@[simp] theorem countIgnored_apart (s : State) : (countIgnored s).apart = s.apart := by
  simp [countIgnored]

@[simp] theorem trackGroup_apart (g : KeyGroup) (s : State) : (trackGroup g s).apart = s.apart := by
  unfold trackGroup
  repeat' split
  all_goals simp

@[simp] theorem discardRun_apart (n : Nat) (run : List KeyGroup) (s : State) :
    (discardRun n run s).apart = s.apart := by
  simp [discardRun]

@[simp] theorem lock_apart (run : List KeyGroup) (first : HalfPos) (s : State) :
    (lock run first s).apart = s.apart := by
  simp [lock]

@[simp] theorem searchRepeat_apart (g : KeyGroup) (s : State) : (searchRepeat g s).apart = s.apart := by
  unfold searchRepeat
  try dsimp only
  repeat' (first | (with_reducible rfl) | (simp; done) | split)

@[simp] theorem searchGroup_apart (g : KeyGroup) (s : State) : (searchGroup g s).apart = s.apart := by
  unfold searchGroup; split <;> simp

@[simp] theorem takePrintGroup_apart (g : PrintGroup) (s : State) : (takePrintGroup g s).apart = s.apart := by
  unfold takePrintGroup; split <;> simp

@[simp] theorem splicePulse_apart (s : State) : (splicePulse s).apart = s.apart := by
  unfold splicePulse; simp only []; split <;> simp

@[simp] theorem handOver_apart (x : Splice) (s : State) : (handOver x s).apart = s.apart := by
  simp [handOver]

@[simp] theorem handOvers_apart  (x : List Splice) (s : State) : (handOvers x s).apart = s.apart := by
  induction x generalizing s with
  | nil => rfl
  | cons y ys ih =>
    unfold handOvers
    repeat' (first | (with_reducible rfl) | (simp [ih]; done) | split)

@[simp] theorem transfer_apart (r : Record) (s : State) : (transfer r s).apart = s.apart := by
  simp [transfer]

@[simp] theorem transferRun_apart  (x : Nat) (s : State) : (transferRun x s).apart = s.apart := by
  induction x generalizing s with
  | zero => rfl
  | succ k ih =>
    unfold transferRun
    repeat' (first | (with_reducible rfl) | (simp [ih]; done) | split)

@[simp] theorem transferSweep_apart (s : State) : (transferSweep s).apart = s.apart := by
  simp [transferSweep]

@[simp] theorem spliceSweep_apart (s : State) : (spliceSweep s).apart = s.apart := by
  simp [spliceSweep]

@[simp] theorem rtkArm_apart (s : State) : (rtkArm s).apart = s.apart := by
  simp [rtkArm]

@[simp] theorem rtkIdle_apart (s : State) : (rtkIdle s).apart = s.apart := by
  simp [rtkIdle]

end Sys2Proof.Machine
end

