-- ==== Sys2Proof/Laws/Orders.lean ====
section
/-! SUPPORT. Orders as commands and as frames: what the meaning of an order is in the operations of the order
queue, and that a frame read as an order is taken as that order (R174). -/

namespace Sys2Proof.Machine

/-- The meaning of an order is its arrival at the order queue, with what it does when it is taken. -/
theorem exec_order {i : Instr} {f : Frame} (h : orderFrame i = some f) (s : State) :
    exec i s = done (submit f (takeOrder i) s) := by
  cases i <;> first | (cases h; rfl) | (exact absurd h (by simp [orderFrame]))

/-- What a frame reads as is an order. -/
theorem ofFrame_order {f : Frame} {i : Instr} (h : ofFrame f = some i) : ∃ g, orderFrame i = some g := by
  unfold ofFrame at h
  split at h <;> first
    | exact absurd h (by simp)
    | (simp only [body0, body1, body2, body12, body14, body5, body41, body44, bodyWord, bodyMany] at h
       split at h <;> first | (cases h; exact ⟨_, rfl⟩) | exact absurd h (by simp))

/-- An order that nothing keeps waiting does at its arrival what it does when it is taken from the queue. -/
theorem exec_takeOrder {i : Instr} {f : Frame} (hf : ofFrame f = some i) {s : State} (ho : s.link.orders = [])
    (ha : s.link.answers.length < answerCapacity) : exec i s = .next (pump (takeOrder i s)) := by
  obtain ⟨g, hg⟩ := ofFrame_order hf
  rw [exec_order hg, submit_taken ha ho, done]

end Sys2Proof.Machine
end

