-- ==== Sys2Proof/WellFormed.lean ====
section
/-! DEFINITION. Which commands the link can carry. Every constructor but JOB SET has operands of fixed
width, all of whose values can be sent; a JOB SET is limited by the frame (R172): its body, a group
number and the contents, is at most 240 bytes. -/

namespace Sys2Proof

/-- The largest body of a frame (R172). -/
def maxBody : Nat := 240

/-- A command that can be sent: the body of a JOB SET fits in a frame (R172). -/
def Instr.wellFormed : Instr → Bool
  | .jobSet _ _ contents => contents.length + 1 ≤ maxBody
  | _ => true

end Sys2Proof
end

