-- ==== Sys2Proof/Laws/PerInstr.lean ====
section
/-! SUPPORT. The family `Carried`, for each command: an order that can be sent has a frame of a kind from 1
to 26 whose body fits (R172), and a command that is no order has none. One lemma for each constructor. -/

namespace Sys2Proof.Laws.Carried

open Sys2Proof.Machine

/-- The frame of a command that can be sent, if it has one, is an order's frame. -/
def Statement (i : Instr) : Prop :=
  i.wellFormed = true → ∀ f, orderFrame i = some f →
    1 ≤ f.kind.toNat ∧ f.kind.toNat ≤ 26 ∧ f.body.length ≤ maxBody

theorem coldReset : Statement .coldReset := by
  rintro - f ⟨⟩

theorem encoderCount (enc : Encoder) (dir : Direction) : Statement (.encoderCount enc dir) := by
  rintro - f ⟨⟩

theorem scannerEdge (scanner : Scanner) (edge : Edge) : Statement (.scannerEdge scanner edge) := by
  rintro - f ⟨⟩

theorem speedMeasurement : Statement .speedMeasurement := by
  rintro - f ⟨⟩

theorem splicePulse : Statement .splicePulse := by
  rintro - f ⟨⟩

theorem doffPulse : Statement .doffPulse := by
  rintro - f ⟨⟩

theorem trimStep (output : Fin 8) : Statement (.trimStep output) := by
  rintro - f ⟨⟩

theorem drawPeriodEnd : Statement .drawPeriodEnd := by
  rintro - f ⟨⟩

theorem nipTimerExpiry : Statement .nipTimerExpiry := by
  rintro - f ⟨⟩

theorem knifeTimerExpiry : Statement .knifeTimerExpiry := by
  rintro - f ⟨⟩

theorem turretTimerExpiry : Statement .turretTimerExpiry := by
  rintro - f ⟨⟩

theorem headTimeoutExpiry : Statement .headTimeoutExpiry := by
  rintro - f ⟨⟩

theorem pollSent : Statement .pollSent := by
  rintro - f ⟨⟩

theorem headByteReceived (b : Byte) : Statement (.headByteReceived b) := by
  rintro - f ⟨⟩

theorem headAnswerGap : Statement .headAnswerGap := by
  rintro - f ⟨⟩

theorem labellerByteReceived (b : Byte) : Statement (.labellerByteReceived b) := by
  rintro - f ⟨⟩

theorem labelCrTransmitted : Statement .labelCrTransmitted := by
  rintro - f ⟨⟩

theorem replyTimerExpiry : Statement .replyTimerExpiry := by
  rintro - f ⟨⟩

theorem hostByteReceived (b : Byte) : Statement (.hostByteReceived b) := by
  rintro - f ⟨⟩

theorem frameGapTimerExpiry : Statement .frameGapTimerExpiry := by
  rintro - f ⟨⟩

theorem frameTransmitted : Statement .frameTransmitted := by
  rintro - f ⟨⟩

theorem storeProgrammingTimerExpiry : Statement .storeProgrammingTimerExpiry := by
  rintro - f ⟨⟩

theorem ident (tag : Byte) : Statement (.ident tag) := by
  rintro - f ⟨⟩; simp [maxBody]

theorem status (tag page : Byte) : Statement (.status tag page) := by
  rintro - f ⟨⟩; simp [maxBody]

theorem restart (tag : Byte) : Statement (.restart tag) := by
  rintro - f ⟨⟩; simp [maxBody]

theorem jobLoad (tag slot : Byte) : Statement (.jobLoad tag slot) := by
  rintro - f ⟨⟩; simp [maxBody]

theorem arm (tag : Byte) : Statement (.arm tag) := by
  rintro - f ⟨⟩; simp [maxBody]

theorem jobEnd (tag : Byte) : Statement (.jobEnd tag) := by
  rintro - f ⟨⟩; simp [maxBody]

theorem jobAbort (tag : Byte) : Statement (.jobAbort tag) := by
  rintro - f ⟨⟩; simp [maxBody]

theorem jobClear (tag : Byte) : Statement (.jobClear tag) := by
  rintro - f ⟨⟩; simp [maxBody]

theorem jobSet (tag group : Byte) (contents : List Byte) : Statement (.jobSet tag group contents) := by
  rintro h f ⟨⟩; simp [Instr.wellFormed, maxBody] at h ⊢; omega

theorem jobRead (tag source group : Byte) : Statement (.jobRead tag source group) := by
  rintro - f ⟨⟩; simp [maxBody]

theorem jobStore (tag slot : Byte) : Statement (.jobStore tag slot) := by
  rintro - f ⟨⟩; simp [maxBody]

theorem deviceSet (tag rate startup : Byte) : Statement (.deviceSet tag rate startup) := by
  rintro - f ⟨⟩; simp [maxBody]

theorem codeSet (tag entry active kind design counter : Byte) : Statement (.codeSet tag entry active kind design counter) := by
  rintro - f ⟨⟩; simp [maxBody]

theorem loopSet (tag loop action : Byte) : Statement (.loopSet tag loop action) := by
  rintro - f ⟨⟩; simp [maxBody]

theorem loopRead (tag loop : Byte) : Statement (.loopRead tag loop) := by
  rintro - f ⟨⟩; simp [maxBody]

theorem trimJog (tag output : Byte) (steps : BitVec 16) : Statement (.trimJog tag output steps) := by
  rintro - f ⟨⟩; simp [maxBody]

theorem engage (tag : Byte) : Statement (.engage tag) := by
  rintro - f ⟨⟩; simp [maxBody]

theorem lift (tag : Byte) : Statement (.lift tag) := by
  rintro - f ⟨⟩; simp [maxBody]

theorem remark (tag : Byte) (index : BitVec 32) (value : Byte) : Statement (.remark tag index value) := by
  rintro - f ⟨⟩; simp [maxBody]

theorem amendWindow (tag : Byte) (first last : BitVec 32) : Statement (.amendWindow tag first last) := by
  rintro - f ⟨⟩; simp [maxBody]

theorem repeatRead (tag selector : Byte) (index : BitVec 32) : Statement (.repeatRead tag selector index) := by
  rintro - f ⟨⟩; simp [maxBody]

theorem rollRead (tag choice : Byte) (number : BitVec 32) : Statement (.rollRead tag choice number) := by
  rintro - f ⟨⟩; simp [maxBody]

theorem batchRead (tag choice : Byte) (number : BitVec 16) : Statement (.batchRead tag choice number) := by
  rintro - f ⟨⟩; simp [maxBody]

theorem batchClose (tag : Byte) (number : BitVec 16) : Statement (.batchClose tag number) := by
  rintro - f ⟨⟩; simp [maxBody]

theorem labelResend (tag : Byte) : Statement (.labelResend tag) := by
  rintro - f ⟨⟩; simp [maxBody]

theorem labelSkip (tag : Byte) : Statement (.labelSkip tag) := by
  rintro - f ⟨⟩; simp [maxBody]

theorem timeBaseUnit : Statement .timeBaseUnit := by
  rintro - f ⟨⟩

end Sys2Proof.Laws.Carried
end

