-- ==== Sys2Proof/Tests/Slice0.lean ====
section
/-! SUPPORT. Tests of single commands against values worked in the manual, the refusal of an ill-formed
command, and for each statement with hypotheses a state and operands that meet them. -/

namespace Sys2Proof.Tests
open Sys2Proof Sys2Proof.Machine

set_option maxRecDepth 20000

/-! ### Small states -/

/-- The state after reset with nothing to transmit. -/
def base : State := { State.reset with link := { State.reset.link with sending := none } }

/-- That state in a job state. -/
def inJob (j : JobState) : State := { base with job := { base.job with state := j } }

/-- A state with settings in job slot 0. -/
def stored (s : State) : State := { s with store := { s.store with jobs := s.store.jobs.set 0 (some defaultSettings) } }

/-- A state with orders waiting. -/
def waiting (n : Nat) : State := { base with link := { base.link with orders := List.replicate n ⟨1, 0, []⟩ } }

/-- A state with answers held behind one that is being sent. -/
def holding (n : Nat) : State :=
  { base with link := { base.link with
      sending := some (.answer ⟨129, 0, [0]⟩), answers := List.replicate n ⟨129, 0, [0]⟩ } }

/-- A roll as a slot first holds it. -/
def someRoll : Roll := newRoll defaultSettings 1 0 2 .pattern 0 0

/-- A state with that roll in slot 0. -/
def withSlot (p : SlotPhase) (r : Roll) (s : State) : State :=
  { s with wnc := { s.wnc with slots := emptySlots.set 0 (.used p r), nextRoll := 2 } }

/-- A record of the store. -/
def someRecord (i : Nat) (st : Stage) : Record := { newRecord (blankRepeat i 0 false) false none with stage := st }

/-- A state with records in the store. -/
def withRecords (rs : List Record) (s : State) : State := { s with rst := { s.rst with records := rs } }

/-- A state with a loop in a state. -/
def withLoop (i : Fin 8) (l : Loop) (s : State) : State := { s with rlu := { loops := s.rlu.loops.set i l } }

/-- A state with a trim output. -/
def withTrim (i : Fin 8) (t : Trim) (s : State) : State := { s with tou := { s.tou with trims := s.tou.trims.set i t } }

/-- A timer that has run out, with its expiry not yet taken. -/
def ranOut (n : Nat) : Timer := { Timer.idle n with due := true }

/-- A state with the nip in a state and its timer run out. -/
def withNip (n : NipState) (s : State) : State :=
  { s with emc := { s.emc with nip := n, timer := ranOut 450 } }

/-- A state with a cycle that polls head 1, with heads still to poll. -/
def polling (todo : List (Fin 4)) : State :=
  { base with shu := { base.shu with
      cycle := some { index := 0, seq := 7, todo, inFlight := some 0, answers := [] }
      timer := base.shu.timer.start 40 } }

/-- That state with the head timeout run out. -/
def pollOut (todo : List (Fin 4)) : State :=
  { polling todo with shu := { (polling todo).shu with timer := ranOut 40 } }

/-- A state that awaits the reply to the label of slot 0. -/
def labelling (st : LabellerState) : State :=
  let s := withSlot .labelPending someRoll base
  { s with lbu := { s.lbu with
      state := st, queue := [0], composed := some [0x31, 0x0D], sending := [⟨[0x31, 0x0D], true⟩]
      timer := s.lbu.timer.start 8000 } }

/-- That state with the reply timer run out. -/
def labelOut (st : LabellerState) : State :=
  { labelling st with lbu := { (labelling st).lbu with timer := ranOut 8000 } }

/-- A batch that is OPEN. -/
def openB (n : Nat) : Batch :=
  { number := n, l := 5000, a := 0, b := 0, rolls := 1, length := 0, firstRoll := 1, lastRoll := 1, lastUse := 1
    closed := none }

/-- A state with batches in the first two entries: number 1 OPEN, number 2 CLOSED. -/
def batches : State :=
  { base with gru := { base.gru with
      table := (emptyBatches.set 0 (some (openB 1))).set 1 (some { openB 2 with closed := some (2, .host) }) } }

/-- The state after a command. -/
def after (c : Instr) (s : State) : State :=
  match exec c s with
  | .next t => t
  | .fault _ => s
  | .refused _ => s

/-- The answer made ready or being sent first. -/
def firstAnswer (s : State) : Option Frame :=
  match s.link.sending with
  | some (.answer f) => some f
  | _ => s.link.answers.head?

/-! ### The check of well-formedness -/

theorem test_jobSet_too_long_is_ill_formed :
    (Instr.jobSet 0 1 (List.replicate 240 0)).wellFormed = false := by decide

theorem test_jobSet_that_fits_is_well_formed :
    (Instr.jobSet 0 1 (List.replicate 239 0)).wellFormed = true := by decide

/-! ### Commands, with values worked in the manual -/

/-- R183: a device record with rate 3 and start-up slot 0 whose record is valid. -/
theorem test_coldReset_loads_the_startup_slot :
    let s := stored base
    let t := after .coldReset { s with store := { s.store with device := some ⟨3, some 0⟩ } }
    t.job.state = .ready ∧ t.link.rate = 3 := by decide

/-- R2: backward from 0 the counter reads 2^40 − 1, and it is not fresh (R3). -/
theorem test_encoderCount_wraps_backward :
    let t := after (.encoderCount .wind .backward) base
    t.epu.d.pos = 0xFFFFFFFFFF ∧ t.epu.d.fresh = false ∧ t.epu.d.highWater = 0 := by decide

/-- R2: forward from 2^40 − 1 the counter reads 0. -/
theorem test_encoderCount_wraps_forward :
    (after (.encoderCount .print .forward) { base with epu := { base.epu with u := { base.epu.u with
      pos := 0xFFFFFFFFFF, highWater := 0xFFFFFFFFFF } } }).epu.u.pos = 0 := by decide

/-- R8, R10: a key mark of 300 counts in SEARCH opens a group. -/
theorem test_scannerEdge_opens_a_group :
    let s := inJob .armed
    let s := { s with
      rtk := { s.rtk with state := .search }, epu := { s.epu with u := { s.epu.u with pos := 400 } }
      mrd := { s.mrd with print := { s.mrd.print with lead := some 100 } } }
    (after (.scannerEdge .print .lightGoing) s).mrd.group.map (·.key) = some ⟨100, 400⟩ := by decide

/-- R4: 3,333 counts since the measurement before. -/
theorem test_speedMeasurement :
    (after .speedMeasurement { base with epu := { base.epu with d := { base.epu.d with
      pos := 4333, measuredAt := 1000 } } }).epu.d.speed = 3333 := by decide

/-- R35: the default splicer distance is 1,000,000 counts. -/
theorem test_splicePulse :
    (after .splicePulse base).rtk.splices = [⟨1000000, .waiting, none⟩] := by decide

/-- R145: with no slot in CUT the pulse is ignored and counted. -/
theorem test_doffPulse_ignored : (after .doffPulse base).wnc.counts.ignoredDoffs = 1 := by decide

/-- R145, R156: a cut roll without a shade is graded R and queued. -/
theorem test_doffPulse_grades :
    let t := after .doffPulse (withSlot .cut someRoll base)
    (t.wnc.slots[0].roll?.bind (·.grade)) = some .r ∧ t.lbu.queue = [0] ∧ t.lbu.state = .await := by decide

/-- R84: a reverse burst of 7 steps at unit 5 of the worked example. -/
theorem test_trimStep :
    (after (.trimStep 1) (withTrim 1 { Trim.reset with pending := -7, acc := 10000 } base)).tou.trims[1] =
      { Trim.reset with pending := -6, acc := 0, reverse := 1 } := by decide

/-- R86, row 2: P = 1 and A = 11,000, and −3 merged before the step: P = −2, A = 0, no step this unit. -/
theorem test_trimStep_after_a_merge :
    let t := after (.trimJog 1 2 (-3)) (withTrim 1 { Trim.reset with pending := 1, acc := 11000 } base)
    let u := (after (.trimStep 1) t).tou.trims[1]
    u.pending = -2 ∧ u.acc = 0 ∧ u.reverse = 0 ∧ u.line = true := by decide

/-- R91: V = 65,535 is high for the whole period but in the last one. -/
theorem test_drawPeriodEnd :
    (after .drawPeriodEnd { base with tou := { base.tou with draw := { base.tou.draw with
      v := 65535, k := 62 } } }).tou.draw.high = 1024 ∧ highTime 65535 0 = 1023 := by decide

/-- R105. -/
theorem test_nipTimerExpiry : (after .nipTimerExpiry (withNip .engaging base)).emc.nip = .engaged := by decide

/-- R139. -/
theorem test_knifeTimerExpiry :
    let t := after .knifeTimerExpiry { base with wnc := { base.wnc with
      state := .knife, knifeOn := true, knife := ranOut 125 } }
    t.wnc.state = .indexing ∧ t.wnc.knifeOn = false ∧ t.wnc.turret.current = 15000 := by decide

/-- R139. -/
theorem test_turretTimerExpiry_to_waste :
    (after .turretTimerExpiry { base with wnc := { base.wnc with
      state := .indexing, turret := ranOut 15000
      follows := some ⟨.waste, 0, 0, false, .from_ 5⟩ } }).wnc.start = .from_ 5 := by decide

/-- R120: a seventh failure in a row does not make the head absent, the eighth does. -/
theorem test_headTimeoutExpiry :
    let s := fun n => let p := pollOut []
      { p with shu := { p.shu with heads := p.shu.heads.set 0 { Head.reset with failures := n } } }
    (after .headTimeoutExpiry (s 6)).shu.heads[0].absent = false ∧
      (after .headTimeoutExpiry (s 7)).shu.heads[0].absent = true := by decide

/-- R119: the count of D that passes a trigger's position pulses the trigger output and polls head 1. -/
theorem test_trigger :
    let t := after (.encoderCount .wind .forward) { base with shu := { base.shu with queue := [⟨4, 0⟩] } }
    t.shu.triggerOut = true ∧ t.shu.sending = [⟨0, 0⟩] ∧ t.shu.nextSeq = 1 ∧
      (after .timeBaseUnit t).shu.triggerOut = false := by decide

/-- R119. -/
theorem test_pollSent :
    let p := polling []
    (after .pollSent { p with shu := { p.shu with
      sending := [⟨0, 7⟩], timer := Timer.idle 40 } }).shu.timer.running = true := by decide

/-- R115: the eleventh byte of an answer whose bytes 1 to 10 add up to 255: status OK, all readings 0. -/
theorem test_headByteReceived :
    let p := polling [1]
    let t := after (.headByteReceived 0xF7) { p with shu := { p.shu with
      answer := [0xE8, 1, 7, 0, 0, 0, 0, 0, 0, 0] } }
    t.shu.heads[0].counts.ok = 1 ∧ (t.shu.cycle.bind (·.inFlight)) = some 1 := by decide

/-- R115: the poll of head 3 with sequence number 0xFE. -/
theorem test_poll_frame : Poll.wire ⟨2, 0xFE⟩ = [0xE7, 3, 0xFE, 0xFE] := by decide

theorem test_headAnswerGap :
    (after .headAnswerGap { base with shu := { base.shu with answer := [0xE8, 1] } }).shu.answer = [] := by decide

/-- R168: an A in AWAIT confirms the roll. -/
theorem test_labellerByteReceived :
    let t := after (.labellerByteReceived 0x41) (labelling .await)
    t.lbu.state = .idle ∧ t.wnc.slots[0] = .used .labelled { someRoll with label := .confirmed } := by decide

theorem test_labelCrTransmitted :
    (after .labelCrTransmitted (labelling .await)).lbu.timer.current = 8000 := by decide

/-- R168: code T. -/
theorem test_replyTimerExpiry :
    let t := after .replyTimerExpiry (labelOut .await)
    t.lbu.state = .faultHold ∧ t.lbu.counts.timeouts = 1 := by decide

/-- R172 to R174, R107: the bytes of an ENGAGE with tag 5 in STANDBY are answered STATE. -/
theorem test_hostByteReceived :
    firstAnswer ((hostBytes (Frame.wire ⟨17, 5, []⟩)).foldl (fun s c => after c s) base) = some ⟨145, 5, [4]⟩ := by
  decide

/-- R173: a byte taken before an expiry that has come with it continues the frame. -/
theorem test_hostByte_before_the_expiry :
    let s := { base with link := { base.link with assembling := some [2], gapTimer := ranOut 30 } }
    (after .frameGapTimerExpiry (after (.hostByteReceived 1) s)).link.assembling = some [2, 1] := by decide

/-- The check of R172 over the ASCII digits 1 to 9, the value known for this polynomial and initial value. -/
theorem test_crc16 : crc16 [0x31, 0x32, 0x33, 0x34, 0x35, 0x36, 0x37, 0x38, 0x39] = 0x29B1 := by decide

theorem test_frameGapTimerExpiry :
    (after .frameGapTimerExpiry { base with link := { base.link with
      assembling := some [2], gapTimer := ranOut 30 } }).link.counts.gap = 1 := by decide

theorem test_frameTransmitted : (after .frameTransmitted State.reset).link.sending = none := by decide

/-- R181: the record is written at the expiry. -/
theorem test_storeProgrammingTimerExpiry :
    let s := after (.jobStore 4 2) base
    let t := after .storeProgrammingTimerExpiry { s with job := { s.job with timer := ranOut 300 } }
    t.store.jobs[2] = some defaultSettings ∧ firstAnswer t = some ⟨139, 4, [0]⟩ := by decide

/-- R182: 0x0F7A, 4,816, revision 1, STANDBY. -/
theorem test_ident : firstAnswer (after (.ident 9) base) = some ⟨129, 9, [0, 0x7A, 0x0F, 0xD0, 0x12, 1, 0]⟩ := by
  decide

/-- R182: a page above 9. -/
theorem test_status_refuses_page_10 : firstAnswer (after (.status 9 10) base) = some ⟨130, 9, [3]⟩ := by decide

/-- R182: the cold reset follows the end of the answer. -/
theorem test_restart :
    (after .frameTransmitted (after (.restart 1) (inJob .ready))).job.state = .standby := by decide

theorem test_jobLoad : (after (.jobLoad 1 0) (stored base)).job.state = .ready := by decide

theorem test_arm : (after (.arm 1) (inJob .ready)).rtk.state = .search := by decide

/-- R177: ARM is refused STATE in STANDBY. -/
theorem test_arm_refused : firstAnswer (after (.arm 1) base) = some ⟨133, 1, [4]⟩ := by decide

theorem test_jobEnd : (after (.jobEnd 1) (inJob .armed)).job.state = .ready := by decide

theorem test_jobAbort : (after (.jobAbort 1) (inJob .draining)).job.state = .ready := by decide

theorem test_jobClear :
    (after (.jobClear 1) (withSlot .labelled someRoll (inJob .ready))).wnc.slots[0] = .free := by decide

/-- R113, R178: a shade group whose divisor is 2. -/
theorem test_jobSet :
    (after (.jobSet 1 24 [0x00, 0x71, 0x02, 0x68, 0x29, 2, 40, 2, 100, 0]) base).act.shade.divisor = 2 := by
  decide

/-- R179: group 36 is refused VALUE. -/
theorem test_jobSet_refuses_group_36 : firstAnswer (after (.jobSet 1 36 []) base) = some ⟨137, 1, [3]⟩ := by
  decide

/-- R179: entry 1 of the table at cold reset reads kind 2 with its care and JOB_MARK. -/
theorem test_jobRead_code_table :
    (firstAnswer (after (.jobRead 1 4 36) base)).map (fun f => f.body.take 9) =
      some [0, 1, 0x10, 0, 0, 1, 0x12, 0, 0x20] := by decide

theorem test_jobStore_clears_the_mark : (after (.jobStore 1 0) (stored base)).store.jobs[0] = none := by decide

theorem test_deviceSet :
    (after (.deviceSet 1 2 255) base).job.prog = some ⟨.device ⟨2, none⟩, 1⟩ := by decide

/-- R19, R20: entry 2 becomes kind 7, IGNORE. -/
theorem test_codeSet :
    (after (.codeSet 1 2 1 0x17 0 0x40) base).act.code[2] =
      ⟨true, ⟨7, true⟩, ⟨0, false⟩, ⟨0, false⟩, .ignore⟩ := by decide

theorem test_loopSet_on : (after (.loopSet 1 8 0) base).rlu.loops[7].state = .fill := by decide

/-- R75: HOLD is refused STATE for a loop that is OFF. -/
theorem test_loopSet_hold_refused : firstAnswer (after (.loopSet 1 1 2) base) = some ⟨142, 1, [4]⟩ := by decide

theorem test_loopRead : (firstAnswer (after (.loopRead 1 8) base)).map (·.body.length) = some 54 := by decide

/-- R83: 3,900 + 400 saturates with 205 dropped. -/
theorem test_trimJog_saturates :
    let t := (after (.trimJog 1 1 400) (withTrim 0 { Trim.reset with pending := 3900 } base)).tou.trims[0]
    t.pending = 4095 ∧ t.dropped = 205 ∧ t.saturations = 1 := by decide

/-- R107: STATE outside ARMED. -/
theorem test_engage_refused : firstAnswer (after (.engage 1) (inJob .draining)) = some ⟨145, 1, [4]⟩ := by decide

theorem test_engage :
    let s := inJob .armed
    (after (.engage 1) { s with epu := { s.epu with d := { s.epu.d with speed := 1000 } } }).emc.nip =
      .engaging := by decide

theorem test_lift : (after (.lift 1) (withNip .engaged base)).emc.nip = .lifting := by decide

/-- R54's table: index 388, CLOSED, roll 23 in CUT, window 21 to 23. -/
theorem test_remark_in_the_window :
    let s := withRecords [{ someRecord 388 .closed with wnd := some ⟨.roll 0 23 1, 0⟩ }]
      (withSlot .cut { someRoll with number := 23 } base)
    ((after (.remark 1 388 3) { s with rst := { s.rst with amend := some (21, 23) } }).rst.find 388).map
      (·.remark) = some 3 := by decide

theorem test_amendWindow_empties :
    (after (.amendWindow 1 5 4) { base with rst := { base.rst with amend := some (1, 9) } }).rst.amend = none := by
  decide

theorem test_repeatRead_not_found : firstAnswer (after (.repeatRead 1 1 0) base) = some ⟨149, 1, [7]⟩ := by decide

theorem test_rollRead_free : (firstAnswer (after (.rollRead 1 0 11) base)).map (·.body.take 3) = some [0, 11, 0] := by
  decide

theorem test_batchRead : (firstAnswer (after (.batchRead 1 1 2) batches)).map (·.body.take 3) = some [0, 1, 2] := by
  decide

/-- R160. -/
theorem test_batchClose :
    (after (.batchClose 1 1) batches).gru.counts.host = 1 ∧
      firstAnswer (after (.batchClose 1 2) batches) = some ⟨152, 1, [4]⟩ := by decide

theorem test_labelResend :
    let t := after (.labelResend 1) (labelling .faultHold)
    t.lbu.state = .await ∧ t.lbu.counts.resends = 1 := by decide

theorem test_labelSkip :
    (after (.labelSkip 1) (labelling .faultHold)).wnc.slots[0] =
      .used .labelled { someRoll with label := .skipped } := by decide

theorem test_timeBaseUnit :
    (after .timeBaseUnit (withTrim 0 { Trim.reset with pending := 1 } base)).tou.trims[0].acc = 2000 := by decide

/-! ### Worked values of the shared operations -/

/-- R15's table for the value 9. -/
theorem test_code_words :
    decodeWord [false, false, true, true, false, true, true, true] = ⟨.corrected, some 9⟩ ∧
      decodeWord [false, true, true, true, false, true, true, true] = ⟨.uncorrectable, none⟩ := by decide

/-- R74's tables. -/
theorem test_loop_outputs :
    (computeOutput { defaultLoop with filterSet := 0 } defaultFilters[0] [24, 20, 22, 18, 20, 16, 14]).f = 19 ∧
      (computeOutput defaultLoop defaultFilters[1] [9, 9, 9, 9, 9, 9, 9, 9]).issued = some (-5) := by decide

/-- The worked case after R89. -/
theorem test_scaling : scaleTotal (50 - 10 * 96) = (-7, -14) := by decide

/-- R90's table. -/
theorem test_draw_values : drawValue (-25000) = 0 ∧ drawValue 0 = 32768 ∧ drawValue 2358 = 36631 := by decide

/-- R122's table, its last row. -/
theorem test_calibration :
    calibrate { enabled := true, gain := 5000, offL := 0, offA := -300, offB := 0 } 5000 (-11000) 200 =
      ⟨6104, -12700, 244, true⟩ := by decide

/-- R153's table. -/
theorem test_deltaE : deltaE 30 0 0 0 20 35 = 50 ∧ deltaE 5 20 50 0 0 0 = 54 := by decide

/-- R166: 403,750 counts at 40,000 counts per metre. -/
theorem test_label_length : decimal (metric 403750 100 40000) = [0x31, 0x30, 0x30, 0x39] := by decide

/-! ### States and operands that meet the hypotheses of the statements -/

/-- With an empty order queue and no answer held an order is taken at once. -/
theorem takes {s : State} (ho : s.link.orders = []) (ha : s.link.answers = []) : Takeable s :=
  ⟨by rw [ha]; decide, ho⟩

theorem witness_StepRunsFrontCommand :
    { base with pending := [.lift 1, .arm 2] }.pending = .lift 1 :: [.arm 2] ∧ base.pending = [] := ⟨rfl, rfl⟩

theorem witness_AnswersAndNoticesAreSent :
    let s := fun n => { base with link := { base.link with notices := List.replicate n startNotice } }
    (s 31).link.notices.length < 32 ∧ 32 ≤ (s 32).link.notices.length ∧
      State.reset.link.sending = some (.notice startNotice) ∧ base.link.sending = none ∧
      { (holding 1).link with sending := none }.answers = ⟨129, 0, [0]⟩ :: [] ∧
      base.link.answers = [] ∧ base.link.notices = [] ∧ (s 1).link.notices = [startNotice] := by decide

theorem witness_OrdersWaitTheirTurn :
    let full := fun n m => { waiting n with link := { (waiting n).link with answers := (holding m).link.answers } }
    orderFrame (.ident 3) = some ⟨1, 3, []⟩ ∧
      ((full 3 0).link.orders ≠ [] ∧ (full 3 0).link.orders.length < 4) ∧
      (8 ≤ (full 0 8).link.answers.length ∧ (full 0 8).link.orders.length < 4) ∧
      (4 ≤ (full 4 8).link.orders.length ∧ 8 ≤ (full 4 8).link.answers.length) ∧
      4 ≤ (full 4 7).link.orders.length ∧ (full 4 7).link.answers.length < 8 := by decide

theorem witness_OrderFrameRoundTrip :
    orderFrame (.repeatRead 3 1 0xFFFFFFFF) = some ⟨21, 3, [1, 255, 255, 255, 255]⟩ ∧
      orderFrame (.jobSet 0 35 [1, 2]) = some ⟨9, 0, [35, 1, 2]⟩ ∧ orderFrame .doffPulse = none := by decide

theorem witness_WireBytesQueueTheOrder :
    (∀ k ∈ [1, 26], 1 ≤ (BitVec.ofNat 8 k).toNat ∧ (BitVec.ofNat 8 k).toNat ≤ 26) ∧
      (List.replicate 240 (0 : Byte)).length ≤ 240 ∧ base.link.assembling = none ∧ pump base = base ∧
      ofFrame ⟨1, 0, []⟩ = some (.ident 0) ∧ ofFrame ⟨1, 0, [9]⟩ = none ∧ base.link.orders = [] ∧
      (holding 8).link.assembling = none ∧ pump (holding 8) = holding 8 ∧ 8 ≤ (holding 8).link.answers.length ∧
      (holding 7).link.answers.length < 8 ∧ (waiting 3).link.orders.length < 4 := by decide

/-- A receiver that has the bytes of a frame of two bytes but for its last check byte, and that byte. -/
def lastByte (kind tag : Byte) : State × Byte :=
  let c := crcBytes [2, kind, tag]
  ({ base with link := { base.link with
      assembling := some [2, kind, tag, c.headD 0], gapTimer := ranOut 30 } }, c.getD 1 0)

theorem witness_ReceiverTakesBytes :
    base.link.assembling = none ∧ (0xC3 : Byte) ≠ 0 ∧
      (2 ≤ (2 : Byte).toNat ∧ (242 : Byte).toNat ≤ 242) ∧
      ¬ (2 ≤ (1 : Byte).toNat ∧ (1 : Byte).toNat ≤ 242) ∧ ¬ (2 ≤ (243 : Byte).toNat ∧ (243 : Byte).toNat ≤ 242) ∧
      (lastByte 1 0).1.link.gapTimer.due = true ∧ (lastByte 1 0).1.link.assembling ≠ none ∧
      base.link.gapTimer.due = false ∧ 8 ≤ (holding 8).link.answers.length ∧
      (∀ k ∈ [(0 : Byte), 27, 126, 127, 255],
        crcBytes [2, k, 9] = [(crcBytes [2, k, 9]).headD 0, (lastByte k 9).2]) ∧
      crcBytes [2, 1, 9] ≠ [(crcBytes [2, 1, 9]).headD 0, (lastByte 1 9).2 + 1] := by decide

theorem witness_FrameEndFreesTransmitter :
    let s := { holding 8 with link := { (holding 8).link with orders := [⟨1, 0, []⟩] } }
    let kept := { holding 8 with job := { base.job with waiting := some ⟨139, 4, [0]⟩ } }
    base.link.sending = none ∧ s.link.sending = some (.answer ⟨129, 0, [0]⟩) ∧
      (Sending.answer ⟨129, 0, [0]⟩).frame.isRestart = false ∧ s.job.waiting = none ∧ s.link.orders = [⟨1, 0, []⟩] ∧
      (pump { s with link := { s.link with sending := none } }).link.answers.length = 7 ∧
      ofFrame ⟨1, 0, []⟩ = some (.ident 0) ∧ ofFrame ⟨1, 0, [9]⟩ = none ∧
      kept.job.waiting = some ⟨139, 4, [0]⟩ ∧ kept.link.answers.length = 8 ∧ kept.link.orders = [] ∧
      -- in the order that waited, and in the answer that was kept
      (after .frameTransmitted s).link.orders = [] ∧ (after .frameTransmitted s).link.answers.length = 8 ∧
      (after .frameTransmitted kept).link.answers.getLast? = some ⟨139, 4, [0]⟩ ∧
      (after (.restart 4) base).link.sending = some (.answer ⟨131, 4, [0]⟩) := by decide

theorem empty_slots_free : ∀ i : Fin 12, emptySlots[i] = .free := by decide

theorem base_slots_free : ∀ i : Fin 12, base.wnc.slots[i] = .free := by decide

/-- Only slot 0 is in use, with roll 1. -/
theorem holds_withSlot {p q : SlotPhase} {s : State} {i : Fin 12} {n : Nat}
    (h : holdsRoll (withSlot p someRoll s) i q n) : i = 0 ∧ q = p ∧ n = 1 := by
  obtain ⟨r, h, rfl⟩ := h
  have hs : ∀ j : Fin 12, j ≠ 0 → (emptySlots.set 0 (.used p someRoll))[j] = .free := by
    intro j hj
    have e : (emptySlots.set 0 (Slot.used p someRoll))[j] = emptySlots[j] := by
      simp only [Fin.getElem_fin]
      exact Vector.getElem_set_ne _ _ (fun h => hj (Fin.ext h.symm))
    exact e.trans (empty_slots_free j)
  by_cases hi : i = 0
  · subst hi
    have : (Slot.used p someRoll) = .used q r := h
    cases this; exact ⟨rfl, rfl, rfl⟩
  · have := hs i hi
    change (emptySlots.set 0 (.used p someRoll))[i] = .used q r at h
    rw [this] at h; cases h

theorem witness_cut_labels_in_order (j : JobState) : LabelsInOrder (withSlot .cut someRoll (inJob j)) := by
  refine ⟨fun i => ⟨fun h => (by cases h), ?_⟩, List.Pairwise.nil, ?_, ?_, ?_, ?_, fun _ => ⟨rfl, rfl⟩⟩
  · rintro ⟨n, h⟩; cases (holds_withSlot h).2.1
  · intro i n _ k m h; cases (holds_withSlot h).2.1
  · intro i n h k m h'; rw [(holds_withSlot h).1, (holds_withSlot h').1]
  · intro i n h; cases (holds_withSlot h).2.1
  · intro i p n h; rw [(holds_withSlot h).2.2]; exact (by decide : 1 < 2)

/-- The queue of the state of `witness_StepKeeps`. -/
def oneOrder : State := { withSlot .cut someRoll base with pending := [.ident 3] }

theorem witness_StepKeeps :
    TrimsBounded oneOrder ∧ LinkBounded oneOrder ∧ SettingsValid oneOrder ∧ LoopsBounded oneOrder ∧
      StoreOrdered oneOrder ∧ WinderSound oneOrder ∧ ∃ t, step oneOrder = .next t := by
  refine ⟨?_, ?_, ⟨?_, ?_, ?_⟩, ?_, ⟨?_, trivial, ?_⟩, ⟨?_, fun _ _ => rfl, fun _ => rfl⟩, ⟨_, rfl⟩⟩
  · intro i; revert i; decide
  · unfold LinkBounded; decide
  · decide
  · have h : ∀ i : Fin 4, oneOrder.store.jobs[i] = none := by decide
    intro i j hj; rw [h i] at hj; cases hj
  · intro p i j h; cases h
  · intro i
    have h : ∀ i : Fin 8, oneOrder.rlu.loops[i] = Loop.reset := by decide
    rw [h i]
    exact ⟨(by decide), (by decide), fun x h => (by cases h), (by decide), (by decide), fun o h => (by cases h)⟩
  · decide
  · intro r h; cases h
  · intro i h; cases h

theorem witness_StepKeepsOutputsAndLinkBounded :
    TrimsBounded oneOrder ∧ LinkBounded oneOrder ∧ SettingsValid oneOrder ∧ TrimsInTime oneOrder ∧
      OrdersServed oneOrder ∧ ∃ t, step oneOrder = .next t := by
  refine ⟨witness_StepKeeps.1, witness_StepKeeps.2.1, witness_StepKeeps.2.2.1, ?_, ?_, _, rfl⟩
  · intro i; revert i; decide
  · unfold OrdersServed; decide

theorem witness_StepKeepsSettingsValid : SettingsValid oneOrder ∧ ∃ t, step oneOrder = .next t :=
  ⟨witness_StepKeeps.2.2.1, _, rfl⟩

theorem witness_StepKeepsLoopsBounded :
    SettingsValid oneOrder ∧ LoopsBounded oneOrder ∧ ∃ t, step oneOrder = .next t :=
  ⟨witness_StepKeeps.2.2.1, witness_StepKeeps.2.2.2.1, _, rfl⟩

/-- Two records in the store, the newer with the last key's index. -/
def twoRecords : State :=
  let s := withRecords [someRecord 4 .created, someRecord 6 .created] oneOrder
  { s with rtk := { s.rtk with last := some ⟨6, 0, none, false⟩ } }

theorem witness_StepKeepsStoreOrdered : StoreOrdered twoRecords ∧ ∃ t, step twoRecords = .next t := by
  refine ⟨⟨by decide, by simp [twoRecords, withRecords, risingIndices, someRecord, newRecord, blankRepeat], ?_⟩,
    _, rfl⟩
  intro r h
  refine ⟨_, rfl, ?_⟩
  have h : r ∈ [someRecord 4 .created, someRecord 6 .created] := h
  simp only [List.mem_cons, List.not_mem_nil, or_false] at h
  rcases h with rfl | rfl <;> decide

theorem witness_StepKeepsLabelsInOrder :
    LabelsInOrder oneOrder ∧ WinderSound oneOrder ∧ ∃ t, step oneOrder = .next t :=
  ⟨witness_cut_labels_in_order .standby, witness_StepKeeps.2.2.2.2.2.1, _, rfl⟩

theorem witness_SpeedMeasurementTakesBoth :
    posDiff 249 0 < (defaultEmboss.minSpeed : Int) ∧ ¬ posDiff 250 0 < (defaultEmboss.minSpeed : Int) := by decide

theorem witness_TimeBaseUnitRunsTimers :
    let t := fun p a => (after .timeBaseUnit (withTrim 0 { Trim.reset with pending := p, acc := a } base)).tou.trims[0]
    0 < defaultShade.timeout ∧ 39 < defaultShade.timeout ∧ defaultShade.timeout ≤ 40 ∧
      base.tou.trims[(0 : Fin 8)].pending = 0 ∧ 100 ≤ 99 + 1 ∧ ¬ 100 ≤ 98 + 1 ∧
      -- steps that no TRIM_STEP has emitted are emitted at the unit
      t 1 10000 = { Trim.reset with forward := 1 } ∧ t (-3) 29999 = { Trim.reset with
        pending := -1, acc := 11999, reverse := 2 } ∧ t 1 9999 = { Trim.reset with pending := 1, acc := 11999 } := by
  decide

/-- ARMED with a leading edge held at 0, U and D at a position, and a window that expects half-count 1,000. -/
def edgeAt (p : Pos) (st : Tracking) : State :=
  let s := inJob .armed
  { s with
    epu := { s.epu with u := { s.epu.u with pos := p }, d := { s.epu.d with pos := p } }
    mrd := { s.mrd with print := { s.mrd.print with lead := some 0 }
                        emboss := { s.mrd.emboss with lead := some 0 } }
    rtk := { s.rtk with state := st, window := some ⟨1000, 400, false⟩ } }

theorem witness_EdgesOutsideAGroup :
    captures (inJob .armed) (inJob .armed).epu.u ∧ captures (inJob .draining) (inJob .draining).epu.d ∧
      ¬ captures (inJob .ready) (inJob .ready).epu.u ∧
      ¬ captures (inJob .armed) { (inJob .armed).epu.d with fresh := false } ∧
      base.mrd.print.lead = none ∧ base.mrd.emboss.lead = none ∧
      captures (edgeAt 160 .search) (edgeAt 160 .search).epu.u ∧ captures (edgeAt 160 .idle) (edgeAt 160 .idle).epu.d ∧
      (edgeAt 160 .search).mrd.print.lead = some 0 ∧ (edgeAt 160 .search).mrd.group = none ∧
      (edgeAt 160 .search).mrd.emboss.lead = some 0 ∧ (edgeAt 160 .search).mrd.embossGroup = none ∧
      -- the widths of a key mark are 160 to 480 counts and of a fiducial 40 to 120, ends included
      (posDiff 159 0 = 159 ∧ posDiff 160 0 = 160 ∧ posDiff 480 0 = 480 ∧ posDiff 481 0 = 481) ∧
      (defaultReader.fiducial = ⟨40, 120⟩ ∧ posDiff 40 0 = 40 ∧ posDiff 120 0 = 120) ∧
      ((halfDiff (centreSum 0 200) 1000).natAbs : Int) ≤ 2 * 400 ∧
      ¬ ((halfDiff (centreSum 0 199) 1000).natAbs : Int) ≤ 2 * 400 :=
  ⟨⟨.inl rfl, rfl⟩, ⟨.inr rfl, rfl⟩, fun h => (by rcases h.1 with h | h <;> cases h), fun h => (by cases h.2), rfl, rfl,
    ⟨.inl rfl, rfl⟩, ⟨.inl rfl, rfl⟩, rfl, rfl, rfl, rfl, by decide, by decide, by decide, by decide⟩

/-- A print group whose key's centre sum is 0, and the same for an emboss group. -/
def inGroup (p : Pos) : State :=
  let s := edgeAt p .locked
  let key : Mark := ⟨0 - 100, 100⟩
  { s with mrd := { s.mrd with
      print := { s.mrd.print with lead := some (p - 100) }
      emboss := { s.mrd.emboss with lead := some (p - 50) }
      group := some ⟨key, noMarks, []⟩, embossGroup := some ⟨key, []⟩ } }

theorem witness_PairInOpenGroupIsPlaced :
    (inGroup 2450).act.valid = true ∧ captures (inGroup 2450) (inGroup 2450).epu.u ∧
      captures (inGroup 2450) (inGroup 2450).epu.d ∧
      (inGroup 2450).mrd.print.lead = some 2350 ∧
      -- the capture range of station 2 is 4,400 to 5,200 half-counts, both ends included
      halfDiff (centreSum 2150 2250) (centreSum (0 - 100) 100) = 4400 ∧
      halfDiff (centreSum 2550 2650) (centreSum (0 - 100) 100) = 5200 ∧
      -- the code area is 1,160 to 3,080 half-counts
      halfDiff (centreSum 530 630) (centreSum (0 - 100) 100) = 1160 ∧
      halfDiff (centreSum 3000 3100) (centreSum (0 - 100) 100) = 6100 ∧
      posDiff 2450 2350 = 100 ∧ posDiff 2450 2371 = 79 ∧ posDiff 3100 3060 = 40 ∧
      (inGroup 2450).mrd.held.length < 4 :=
  ⟨by decide, ⟨.inl rfl, rfl⟩, ⟨.inl rfl, rfl⟩, rfl, by decide, by decide, by decide, by decide, by decide,
    by decide, by decide, by decide⟩

/-- A group whose kind word is a value and whose other cells are light. -/
def groupOf (v : Nibble) : PrintGroup := ⟨⟨0, 300⟩, noMarks, printedWord v ++ List.replicate 16 false⟩

theorem witness_CodeWordsAndTableDecide :
    (keyGroup defaultSettings (groupOf 2)).outcome = .jobMark ∧
      (keyGroup defaultSettings (groupOf 0)).outcome = .plainRepeat ∧
      (keyGroup defaultSettings (groupOf 9)).outcome = .unmatched ∧ Takeable base ∧
      ((7 : Byte).toNat < 8 ∧ (1 : Byte).toNat ≤ 1 ∧ (31 : Byte).toNat < 32 ∧ (95 : Byte).toNat < 96 ∧
        ((95 : Byte).toNat / 32, CodeAction.ignore) ∈ [(0, CodeAction.plainRepeat), (1, .jobMark), (2, .ignore)]) ∧
      ¬ (8 : Byte).toNat < 8 ∧ ¬ (96 : Byte).toNat < 96 ∧ ¬ (32 : Byte).toNat < 32 ∧ ¬ (2 : Byte).toNat ≤ 1 :=
  ⟨by decide, by decide, by decide, takes rfl rfl, by decide⟩

/-- Splices at two positions. -/
def spliced : List Splice := [⟨999999, .waiting, none⟩, ⟨1000000, .watch, none⟩]

theorem witness_SplicesAreQueuedAndStamped :
    let p := posShift base.epu.u.pos base.act.track.splicerDistance
    (∀ x ∈ spliced, 0 ≤ posDiff p x.pos) ∧
      (∀ y ∈ [(⟨1000001, .waiting, none⟩ : Splice)].head?, posDiff p y.pos < 0) ∧
      (spliced ++ [(⟨1000001, .waiting, none⟩ : Splice)]).length < 4 ∧ 4 ≤ (spliced ++ spliced).length := by decide

theorem witness_WindowExpiryPredictsRecord :
    Tracking.locked.tracks = true ∧ Tracking.coasting.tracks = true ∧
      (List.replicate 511 (someRecord 0 .created)).length < 512 ∧ 4294967294 + 1 ≤ 4294967295 ∧
      1 + 1 < defaultTrack.coastLimit ∧ defaultTrack.coastLimit ≤ 2 + 1 := by decide

theorem witness_StoreWritesAndFreeing :
    let p := fun r : Record => r.index == 5
    (Group44.shd ⟨0, 0, 0, 1, 0, false, false⟩).part ≠ (Group44.reg ⟨noMarks.map fun _ => none, noMask, false⟩).part ∧
      (some Stage.assigned) ≠ some .closed ∧
      (withRecords [someRecord 4 .closed] base).rst.records.find? (fun x => x.index == 5) = none ∧
      (withRecords [someRecord 4 .closed] base).rst.records.find? (fun x => x.index == 4) =
        some (someRecord 4 .closed) ∧
      p (someRecord 5 .assigned) = true ∧ (∀ r ∈ [someRecord 6 .assigned], p r = false) ∧
      [someRecord 4 .assigned].filter (fun r => !p r) ≠ [] ∧ ([] : List Record).filter (fun r => !p r) = [] := by
  decide

theorem witness_RemarkIsDecided :
    Takeable (withRecords [someRecord 4 .closed] base) ∧
      (15 : Byte).toNat ≤ 15 ∧ 15 < (16 : Byte).toNat ∧
      (withRecords [someRecord 4 .closed] base).rst.records.find? (fun r => r.index == 4) =
        some (someRecord 4 .closed) ∧ (someRecord 4 .closed).stage = .closed ∧ (someRecord 4 .closed).wnd = none ∧
      (someRecord 4 .assigned).stage ≠ .closed :=
  ⟨takes rfl rfl, by decide⟩

theorem witness_AmendWindowRule :
    Takeable base ∧ (5 : BitVec 32).toNat ≤ (5 : BitVec 32).toNat ∧
      ¬ (6 : BitVec 32).toNat ≤ (5 : BitVec 32).toNat :=
  ⟨takes rfl rfl, by decide⟩

theorem witness_LoopOutputOpposesError :
    let o := fun cfg history => computeOutput cfg defaultFilters[1] history
    1 ≤ defaultLoop.maxstep ∧ (o defaultLoop (List.replicate 8 8)).f.natAbs ≤ defaultLoop.deadband ∧
      defaultLoop.deadband < (o defaultLoop (List.replicate 8 9)).f.natAbs ∧
      roundDiv (-(o defaultLoop (List.replicate 8 9)).f * defaultLoop.gain) 256 = -5 ∧
      roundDiv (-(o { defaultLoop with gain := 1 } (List.replicate 8 100)).f * (1 : Nat)) 256 = 0 ∧
      defaultLoop.maxstep < (roundDiv (-(o defaultLoop (List.replicate 8 (-500))).f * defaultLoop.gain) 256).natAbs ∧
      4095 < (roundDiv (List.zipWith (· * ·) (FilterSet.taps ⟨.even8, 511, 511, 511, 511⟩)
        (List.replicate 8 4095)).sum 512).natAbs := by decide

theorem witness_LoopInputsAreTaken :
    2 * 40 < (81 : Int).natAbs ∧ (80 : Int).natAbs ≤ 2 * 40 ∧
      (∀ st : LoopState, { Loop.reset with state := st }.state = st) ∧ Loop.reset.lastGood = none ∧
      { Loop.reset with lastGood := some 5 }.lastGood = some 5 ∧
      defaultLoop.coastLimit ≤ min (2 + 1) 255 ∧ ¬ defaultLoop.coastLimit ≤ min (1 + 1) 255 :=
  ⟨by decide, by decide, fun _ => rfl, rfl, rfl, by decide, by decide⟩

theorem witness_RecordsGiveErrorsAndRegOut :
    regOut defaultSettings #v[some (-80), some (-80), some (-80), some (-80), some (-80), some (-80), some (-80)] = false ∧
      regOut defaultSettings #v[some (-81), some (-81), some (-81), some (-81), some (-81), some (-81), some (-81)] = true ∧
      regOut defaultSettings #v[none, none, none, none, none, none, none] = true := by decide

theorem witness_LoopSetIsDecided :
    Takeable base ∧ (1 : Byte).toNat = (0 : Fin 8).val + 1 ∧
      (0 : Fin 8).val + 2 ≤ base.act.reader.stations ∧ (8 : Byte).toNat = (7 : Fin 8).val + 1 ∧
      ((2 : Byte).toNat ≤ 7 ∧ base.act.reader.stations < (2 : Byte).toNat + 1) ∧ 8 < (9 : Byte).toNat ∧
      3 < (4 : Byte).toNat ∧ base.act.loops[(0 : Fin 8)].filterSet < 4 ∧
      base.act.filters[base.act.loops[(0 : Fin 8)].filterSet]? = some ⟨.odd7, 32, 64, 96, 128⟩ ∧
      (∀ st : LoopState, (withLoop 0 { Loop.reset with state := st } base).rlu.loops[(0 : Fin 8)].state = st) :=
  ⟨takes rfl rfl, by decide, by decide, by decide, by decide, by decide, by decide, by decide, by decide,
    fun st => by cases st <;> decide⟩

theorem witness_CorrectionsBecomeSteps :
    let sum := fun p : Int => p + (scaleTotal (0 + 95 * 128)).1
    (sum 4000).natAbs ≤ 4095 ∧ 4095 < (sum 4001).natAbs ∧ sum (-95) = 0 ∧ sum (-96) < 0 := by decide

theorem witness_TrimStepsAndDrawPeriods :
    let t := fun p a => { Trim.reset with pending := p, acc := a }
    (0 < (t 1 10000).pending ∧ 10000 ≤ (t 1 10000).acc) ∧ ((t (-4095) 29999).pending < 0 ∧ 10000 ≤ (t (-4095) 29999).acc) ∧
      (t 0 0).pending = 0 ∧ (t 1 9999).acc < 10000 := by decide

theorem witness_TrimJogMerges :
    Takeable base ∧ (2047 : BitVec 16).toInt.natAbs ≤ 2047 ∧
      2047 < (2048 : BitVec 16).toInt.natAbs ∧ (1 : Byte).toNat = (0 : Fin 8).val + 1 ∧
      base.rlu.loops[(0 : Fin 8)].state = .off ∧
      ¬ ((withLoop 0 { Loop.reset with state := .fill } base).rlu.loops[(0 : Fin 8)].state = .off) ∧
      (2048 + (2047 : BitVec 16).toInt).natAbs ≤ 4095 ∧ 4095 < (2049 + (2047 : BitVec 16).toInt).natAbs :=
  ⟨takes rfl rfl, by decide⟩

theorem witness_NipTimerExpiryMovesNip :
    base.emc.timer.due = false ∧ (withNip .lifting base).emc.timer.due = true ∧
      (withNip .lifting base).emc.autoPending = false ∧
      (∀ w ∈ base.emc.watch, base.inZone w = false) ∧
      (defaultEmboss.minSpeed : Int) ≤ 250 ∧ ¬ (defaultEmboss.minSpeed : Int) ≤ 249 := by decide

theorem witness_EngageAndLiftAreDecided :
    Takeable base ∧ Takeable base ∧
      (let s := inJob .armed
       let t := { s with epu := { s.epu with d := { s.epu.d with pos := 300001, speed := 250 } }
                         emc := { s.emc with watch := [⟨0, none, true⟩] } }
       t.job.state = .armed ∧ t.emc.nip = .lifted ∧ (t.act.emboss.minSpeed : Int) ≤ t.epu.d.speed ∧
         ∃ w ∈ t.emc.watch, t.inZone w = true) :=
  ⟨takes rfl rfl, takes rfl rfl, by decide⟩

theorem witness_NipStaysClearOfSplices :
    NipClear (inJob .armed) ∧ (∀ w ∈ [(⟨0, none, false⟩ : Watched)],
      w.liftPassed = passed (300000 : Pos) (defaultEmboss.liftPoint w) ∧
      posDiff (300000 : Pos) (defaultEmboss.nipPoint w) ≠ 2 ^ 39 - 1) ∧
      ∃ t, exec (.encoderCount .wind .forward) (inJob .armed) = .next t :=
  ⟨fun w h => (by cases h), (by decide), ⟨_, rfl⟩⟩

theorem witness_PollsAndTimeouts :
    (pollOut [1]).shu.timer.due = true ∧ (pollOut [1]).shu.cycle = some ⟨0, 7, [1], some 0, []⟩ ∧
      (0 : Fin 4) ∉ [(1 : Fin 4)] ∧ (0 : Fin 4) ∉ ([] : List (Fin 4)) ∧ (pollOut []).shu.cycle = some ⟨0, 7, [], some 0, []⟩ ∧
      base.shu.timer.due = false ∧ base.shu.cycle = none ∧ base.shu.sending = [] ∧
      ([] : List Reading).length < base.act.shade.minHeads := by decide

theorem witness_HeadBytesAssemble :
    let whole : List Byte := [0xE8, 1, 7, 0, 0, 0, 0, 0, 0, 0, 0xF7]
    whole.length = 11 ∧ (whole.tail.map BitVec.toNat).sum % 256 = 255 ∧ byteAt whole 3 = 0 ∧
      (byteAt whole 1).toNat = (0 : Fin 4).val + 1 ∧ byteAt whole 2 = 7 ∧ 2 < (3 : Byte).toNat ∧
      (polling [1]).shu.timer.live = true ∧ (1 : Fin 4) ≠ 0 ∧ base.shu.cycle = none ∧
      base.shu.answer = [] ∧ (0 : Fin 4) ∉ [(1 : Fin 4)].head? ∧ (2 : Byte).toNat ≤ 2 := by decide

theorem witness_ShadeSampleStaysInRange :
    let rs : List Reading := [⟨0, -12700, 0, false⟩, ⟨10000, 12700, 1, true⟩]
    (∀ y ∈ rs, 0 ≤ y.l ∧ y.l ≤ 10000) ∧ (combine 9999 rs).side = true ∧ (combine 10000 rs).side = false ∧
      (combine 10000 rs).clamped = true := by decide

theorem witness_DoffPulseMovesCutRoll :
    (∀ (i : Fin 12) r, base.wnc.slots[i] ≠ .used .cut r) ∧
      LabelsInOrder (withSlot .cut someRoll base) ∧
      (withSlot .cut someRoll base).wnc.slots[(0 : Fin 12)] = .used .cut someRoll ∧
      (let r := { someRoll with shade := some ⟨5000, 0, 0, 80⟩ }
       gradeOf defaultGrade r.mode r.shade Defects.zero = .a) :=
  ⟨fun i r h => (by rw [base_slots_free i] at h; cases h),
    witness_cut_labels_in_order .standby, rfl, by decide⟩

/-- A turret that has run out before what follows, with the first of two records held. -/
def turned (f : Follows) (s : State) : State :=
  let s := withRecords [someRecord 6 .downstream, someRecord 7 .downstream] s
  { s with wnc := { s.wnc with
      state := .indexing, turret := ranOut 15000, turretOn := true, held := [6], cutStarts := [⟨6, 0⟩]
      follows := some ⟨f, 6, 0, false, .from_ 0⟩ } }

theorem witness_KnifeAndTurretExpire :
    base.wnc.knife.due = false ∧ (ranOut 125).due = true ∧ WinderState.winding ≠ .knife ∧
      (turned .end_ (inJob .armed)).job.state ≠ .draining ∧ (turned .end_ (inJob .draining)).job.state = .draining ∧
      (∀ i : Fin 12, (turned .end_ (inJob .draining)).wnc.slots[i].busy = false) ∧
      (turned .end_ (withSlot .cut someRoll (inJob .draining))).wnc.slots[(0 : Fin 12)].busy = true ∧
      (turned .roll base).wnc.turret.due = true ∧ (turned .roll base).wnc.state = .indexing ∧
      (turned .roll base).wnc.follows = some ⟨.roll, 6, 0, false, .from_ 0⟩ ∧ base.wnc.stopOn = false ∧
      base.wnc.nextRoll ≤ 4294967295 ∧ base.wnc.slots[(0 : Fin 12)] = .free ∧ (∀ j < (0 : Fin 12), base.wnc.slots[j] ≠ .free) ∧
      (withSlot .labelled someRoll base).wnc.slots[(1 : Fin 12)] = .free ∧
      (∀ j < (1 : Fin 12), (withSlot .labelled someRoll base).wnc.slots[j] ≠ .free) := by decide

/-- The roll that follows a cut begins with the record held for it. -/
theorem test_turretTimerExpiry_starts_a_roll :
    let t := after .turretTimerExpiry (turned .roll base)
    t.wnc.state = .winding ∧ t.wnc.winding = some 0 ∧ t.wnc.nextRoll = 2 ∧ t.wnc.held = [] ∧
      t.rst.records.map (·.wnd) = [some ⟨.roll 0 1 1, 0⟩, none] ∧
      (t.wnc.slots[0].roll?.map fun r => (r.number, r.firstIndex, r.count)) = some (1, 6, 1) := by decide

theorem witness_DeltaEAndGrade :
    (0 ≤ (10000 : Int) ∧ (10000 : Int) ≤ 10000 ∧ (-12700 : Int).natAbs ≤ 12700) ∧
      deltaE 0 (-12700) (-12700) 10000 12700 12700 = 37286 := by decide

theorem witness_BatchesAreChosenAndClosed :
    1 ≤ 65535 ∧ 65535 ≤ 65535 ∧ Takeable batches ∧ (1 : BitVec 16) ≠ 0 ∧
      batches.gru.table[(0 : Fin 8)] = some (openB 1) ∧ (openB 1).closed = none ∧
      (batches.gru.table[(1 : Fin 8)].map (·.closed)) = some (some (2, .host)) ∧
      (∀ e : Fin 8, ∀ b ∈ batches.gru.table[e], b.number ≠ 3) :=
  ⟨by decide, by decide, takes rfl rfl, by decide⟩

theorem witness_LabellerRepliesAreTaken :
    (labelling .await).job.state ≠ .draining ∧ (labelling .await).lbu.state = .await ∧
      (labelling .await).lbu.gotF = false ∧ (labelling .await).lbu.queue = [0] ∧
      (labelling .await).wnc.slots[(0 : Fin 12)] = .used .labelPending someRoll ∧
      (labelling .faultHold).lbu.state ≠ .await ∧ (0x30 : Byte).toNat = 0x30 + (0 : Fin 10).val ∧
      (0x39 : Byte).toNat = 0x30 + (9 : Fin 10).val ∧ (0x2F : Byte).toNat < 0x30 ∧ 0x39 < (0x3A : Byte).toNat := by
  decide

theorem witness_LabelHoldIsResolved :
    let two := fun s : State => { s with
      wnc := { s.wnc with slots := s.wnc.slots.set 1 (.used .labelPending { someRoll with number := 2 }), nextRoll := 3 }
      lbu := { s.lbu with queue := [0, 1] } }
    let drain := { labelling .faultHold with job := { base.job with state := .draining } }
    Takeable (labelling .faultHold) ∧ (labelling .faultHold).lbu.state = .faultHold ∧
      (labelling .await).lbu.state ≠ .faultHold ∧ (labelling .faultHold).lbu.queue = [0] ∧
      (labelling .faultHold).lbu.composed = some [0x31, 0x0D] ∧
      (labelling .faultHold).wnc.slots[(0 : Fin 12)] = .used .labelPending someRoll ∧
      (labelling .faultHold).job.state ≠ .draining ∧ (labelOut .await).lbu.timer.due = true ∧
      base.lbu.sending = [] ∧ base.lbu.timer.due = false ∧
      (two (labelling .faultHold)).wnc.slots[(1 : Fin 12)] = .used .labelPending { someRoll with number := 2 } ∧
      (drain.wnc.state = .idle ∧ ∀ j : Fin 12,
        (drain.wnc.slots.set (0 : Fin 12) (.used .labelled { someRoll with label := .skipped }))[j].busy = false) ∧
      -- a SKIP sends the next label, and ends a drained job
      (after (.labelSkip 1) (two (labelling .faultHold))).lbu.queue = [1] ∧
      (after (.labelSkip 1) (two (labelling .faultHold))).lbu.state = .await ∧
      (after (.labelSkip 1) drain).job.state = .ready :=
  ⟨takes rfl rfl, by decide⟩

theorem witness_JobLoadReplacesSettings :
    Takeable (stored base) ∧ (3 : Byte).toNat = (3 : Fin 4).val ∧ 3 < (4 : Byte).toNat ∧
      (stored base).store.jobs[(0 : Fin 4)] = some defaultSettings ∧ (stored base).store.jobs[(3 : Fin 4)] = none ∧
      defaultSettings.valid = true ∧ ¬ ((stored base).job.state = .armed) ∧ (inJob .armed).job.state = .armed ∧
      (withTrim 0 { Trim.reset with pending := 1 } base).tou.trims[(0 : Fin 8)].pending ≠ 0 :=
  ⟨takes rfl rfl, by decide⟩

theorem witness_ArmTakesArmValues :
    Takeable (inJob .ready) ∧ (inJob .ready).job.state = .ready ∧
      Takeable (inJob .armed) ∧ (inJob .armed).job.state ≠ .ready :=
  ⟨takes rfl rfl, rfl, takes rfl rfl, by decide⟩

theorem witness_JobOrdersEndTheJob :
    (Takeable (inJob .ready) ∧ Takeable (inJob .armed) ∧ Takeable (inJob .draining)) ∧
      (inJob .ready).job.state = .ready ∧ (inJob .armed).job.state = .armed ∧
      (inJob .draining).job.state = .draining ∧ (inJob .armed).job.state ≠ .ready :=
  ⟨⟨takes rfl rfl, takes rfl rfl, takes rfl rfl⟩, by decide⟩

theorem witness_ColdResetValues :
    base.store.device = none ∧
      (let s := stored base
       let t := { s with store := { s.store with device := some ⟨3, some 0⟩ } }
       t.store.device = some ⟨3, some 0⟩ ∧ t.store.jobs[(0 : Fin 4)] = some defaultSettings ∧
         t.store.jobs[(1 : Fin 4)] = none ∧ defaultSettings.valid = true) := by decide

theorem witness_JobSetIsDecided :
    Takeable base ∧ (0 : Byte).toNat ≤ 35 ∧ Group.scale.number = (0 : Byte).toNat ∧
      35 < (36 : Byte).toNat ∧ (le 3 80000).length = Group.scale.size ∧ (le 2 80000).length ≠ Group.scale.size ∧
      (setGroup base.act (le 3 80000) .scale).map JobSettings.valid = some true ∧
      (setGroup base.act (le 3 80001) .scale).map JobSettings.valid = some false ∧
      setGroup base.act [2, 0, 0, 0, 0, 0, 0, 0, 0] (.filter 0) = none ∧
      (setGroup base.act (le 3 80000) .scale).map (sameGeometry base.act) = some false :=
  ⟨takes rfl rfl, by decide⟩

theorem witness_JobReadWrittenBackChangesNothing :
    Group.label ≠ .code ∧ base.act.valid = true ∧
      Takeable base :=
  ⟨by decide, by decide, takes rfl rfl⟩

theorem witness_ProgrammingWritesTheRecord :
    Takeable base ∧ Takeable base ∧ (3 : Byte).toNat ≤ 3 ∧ 3 < (4 : Byte).toNat ∧
      base.job.prog = none ∧ (after (.jobStore 1 0) base).job.prog ≠ none ∧
      (ranOut 300).due = true ∧ base.job.timer.due = false ∧
      (holding 7).link.answers.length < 8 ∧ 8 ≤ (holding 8).link.answers.length :=
  ⟨takes rfl rfl, takes rfl rfl, by decide⟩

theorem witness_ReadingOrdersChangeNothing :
    Takeable base ∧ 9 < (10 : Byte).toNat ∧ 36 < (37 : Byte).toNat ∧ 4 < (5 : Byte).toNat ∧
      Group.code.number = (36 : Byte).toNat ∧ base.rlu.loops[(0 : Fin 8)].history.length ≤ 8 ∧
      12 ≤ (12 : BitVec 32).toNat ∧ (11 : BitVec 32).toNat = (11 : Fin 12).val ∧
      8 ≤ (8 : BitVec 16).toNat ∧ (7 : BitVec 16).toNat = (7 : Fin 8).val ∧
      (withRecords [someRecord 4 .closed] base).rst.records.head? = some (someRecord 4 .closed) ∧
      base.rst.records.head? = none :=
  ⟨takes rfl rfl, by decide⟩

theorem witness_ReadingOrders_finds_a_roll :
    holdsRoll (withSlot .labelled someRoll base) 0 .labelled (1 : BitVec 32).toNat ∧
      ∀ i p, ¬ holdsRoll base i p (1 : BitVec 32).toNat := by
  refine ⟨⟨someRoll, rfl, rfl⟩, ?_⟩
  rintro i p ⟨r, h, _⟩
  rw [base_slots_free i] at h; cases h

/-! ### Witnesses of the statements about the line -/

theorem witness_EncoderCountSamplesCells :
    Counted .forward (edgeAt 160 .search).epu.u { (edgeAt 160 .search).epu.u with pos := 161, highWater := 161 } ∧
      Counted .backward base.epu.d { base.epu.d with pos := 0xFFFFFFFFFF, fresh := false } ∧ base.mrd.group = none ∧
      base.mrd.embossGroup = none ∧ (inGroup 2450).mrd.group = some ⟨⟨0 - 100, 100⟩, noMarks, []⟩ ∧
      (inGroup 2450).mrd.embossGroup = some ⟨⟨0 - 100, 100⟩, []⟩ ∧
      -- the last cell lies at 3,040 half-counts and the print group ends at 5,440
      (defaultReader.lastCell = 3040 ∧ defaultReader.groupEnd = 5440) ∧
      ¬ 0 < halfDiff (half 1520) (halfShift 0 3040) ∧ 0 < halfDiff (half 1521) (halfShift 0 3040) ∧
      ¬ 0 < halfDiff (half 2720) (halfShift 0 5440) ∧ 0 < halfDiff (half 2721) (halfShift 0 5440) :=
  ⟨⟨rfl, rfl, rfl, rfl, rfl⟩, ⟨rfl, rfl, rfl, rfl, rfl⟩, by decide⟩

/-- A code match table whose first entry reads every group as a repeat. -/
def anyCode (s : State) : State :=
  { s with act := { s.act with code := s.act.code.set 0 ⟨true, ⟨0, false⟩, ⟨0, false⟩, ⟨0, false⟩, .plainRepeat⟩ } }

/-- A print group whose key's centre sum is twice a position, with a counter word. -/
def keyAt (p : Pos) (counter : Nibble) : PrintGroup :=
  ⟨⟨p - 100, p + 100⟩, noMarks, printedWord 0 ++ printedWord 0 ++ printedWord counter⟩

/-- SEARCH with a run. -/
def searching (run : List KeyGroup) : State := { base with rtk := { base.rtk with state := .search, run } }

/-- LOCKED, with the record of index 4 the newest and its key at 0, counter 3, and an unclaimed window. -/
def tracking (st : Tracking) : State :=
  let s := withRecords [someRecord 4 .created] (edgeAt 22000 st)
  { s with rtk := { s.rtk with last := some ⟨4, 0, some 3, true⟩, window := some ⟨42400, 636, true⟩, nextIndex := 5 } }

/-- Three keys a repeat apart lock the tracker; in LOCKED a group with the next counter is the next record, one
with a counter two on leaves a MISSED record between, and one with the same counter is a double read. -/
theorem witness_PrintGroupsAreTracked :
    let k := fun p c => keyGroup defaultSettings (keyAt p c)
    let locks := takePrintGroup (keyAt 42400 5) (searching [k 0 3, k 21200 4])
    let next := fun c => takePrintGroup (keyAt 21000 c) (tracking .locked)
    (k 0 3).outcome = .plainRepeat ∧ (keyGroup defaultSettings (groupOf 2)).outcome = .jobMark ∧
      (searching [k 0 3, k 21200 4]).rst.records.length + 3 ≤ 512 ∧
      (locks.rtk.state = .locked ∧ locks.rst.records.map (·.index) = [0, 1, 2] ∧
        locks.rtk.window = some ⟨127200, 636, false⟩ ∧ locks.rtk.history = [21200, 21200]) ∧
      ((tracking .locked).rtk.window = some ⟨42400, 636, true⟩ ∧
        ¬ 0 < halfDiff (half (tracking .locked).epu.u.pos) (halfShift 42400 (2 * 636 + 1600)) ∧
        0 < halfDiff (half (tracking .locked).epu.u.pos) (halfShift 42400 (2 * 636))) ∧
      ((next 4).rst.records.map fun r => (r.index, r.missed, r.lU)) = [(4, false, some 21000), (5, false, none)] ∧
      ((next 5).rst.records.map fun r => (r.index, r.missed, r.keyU)) =
        [(4, false, 0), (5, true, 21000), (6, false, 42000)] ∧
      ((next 3).rtk.counts.doubleReads = 1 ∧ (next 3).rtk.state = .coasting ∧ (next 3).rtk.counts.predicted = 1) := by
  decide

theorem witness_tracking_store_ordered : StoreOrdered (tracking .locked) ∧ StoreOrdered (searching []) := by
  refine ⟨⟨by decide, trivial, fun r h => ?_⟩, by decide, trivial, fun r h => (by cases h)⟩
  refine ⟨_, rfl, ?_⟩
  have h : r ∈ [someRecord 4 .created] := h
  rw [List.mem_singleton.mp h]; decide

/-- U past the transfer point of the first of two records and of the first of two splices. -/
def transferring : State :=
  let s := withRecords [someRecord 4 .created, { someRecord 5 .created with keyU := 42400 }] (edgeAt 1200001 .locked)
  { s with rtk := { s.rtk with last := some ⟨5, 42400, none, false⟩, splices := [⟨0, .watch, some 4⟩, ⟨1, .watch, none⟩] } }

theorem witness_TransferPointHandsOver :
    let full := { transferring with shu := { base.shu with queue := List.replicate 64 ⟨0, 0⟩ } }
    (someRecord 4 .created).index % defaultShade.divisor = 0 ∧ 5 % 2 ≠ 0 ∧
      (full.shu.queue.length = 64 ∧ (transfer (someRecord 4 .created) full).shu.counts.overflows = 1) ∧
      ((transferSweep transferring).rst.records.map fun r => (r.stage, r.keyT)) =
        [(.transferred, some 1200001), (.created, none)] ∧
      (transferSweep transferring).shu.queue = [⟨4, 1200001 + 170600⟩] ∧
      (spliceSweep transferring).rtk.splices = [⟨1, .watch, none⟩] ∧
      (spliceSweep transferring).emc.watch = [⟨1200001, some 4, false⟩] ∧
      (let four := { transferring with emc := { base.emc with nip := .engaged, watch := List.replicate 4 ⟨0, none, true⟩ } }
       (spliceSweep four).emc.watch.length = 4 ∧ (spliceSweep four).emc.nip = .lifting ∧
         (spliceSweep four).emc.counts.lostWatch = 1) := by decide

/-- A record TRANSFERRED at a position. -/
def transferredAt (i : Nat) (t : Pos) (lU : Option Int) : Record :=
  { someRecord i .transferred with predicted := false, keyT := some t, lU }

/-- ARMED, with record 4 the last downstream one, seen at half-count 0, and the records 5, 6 and 7 TRANSFERRED. -/
def finding : State :=
  let s := inJob .armed
  let s := withRecords [{ transferredAt 4 0 (some 20000) with stage := .downstream }, transferredAt 5 21200 none,
    transferredAt 6 42400 none, transferredAt 7 63600 none] s
  { s with emc := { s.emc with lastDown := some ⟨4, 0, true, true⟩ } }

theorem witness_RecordsBecomeDownstream :
    let r := transferredAt 5 21200 none
    let w := fun seen keyD => makeDownstream r seen keyD finding
    let old := fun nip => { finding with emc := { finding.emc with pairKey := some ⟨4, 0, true, nip, false, false⟩ } }
    finding.rst.records.find? (fun x => x.index == 5) = some r ∧ r.stage ≠ .closed ∧
      (w true 40400).emc.lastLD = some 20200 ∧
      -- 200 counts more than 20,000 are 10,000 ppm: V = round(30,000 × 65,535 / 40,000)
      (w true 40400).emc.stretch = [10000] ∧ (w true 40400).tou.draw.v = 49151 ∧
      -- 1,001 counts more are beyond 50,000 ppm
      (w true 42002).emc.stretch = [] ∧ (w true 42002).emc.counts.stretchRejects = 1 ∧
      (w false 40400).emc.stretch = [] ∧ (w false 40400).emc.lastLD = none ∧
      (makeDownstream r true 40400 (old (some true))).emc.counts.missing = 1 ∧
      (makeDownstream r true 40400 (old none)).emc.counts.missing = 0 ∧
      (makeDownstream { r with emb := some { Emb.blank with nip := some true } } false 40400 finding).emc.counts.missing = 1 := by
  decide

/-- An emboss group whose key's centre is at a position. -/
def embossAt (p : Pos) : EmbossGroup := ⟨⟨p - 100, p + 100⟩, List.replicate 24 true⟩

/-- A state with a pairing key and a gap. -/
def pairing (k : PairKey) (gap : Nat) (n : NipState) : State :=
  { inJob .armed with emc := { base.emc with pairKey := some k, gap, nip := n, wrongRun := 1, overRun := 2 } }

theorem witness_EmbossGroupsAndFiducialsArePaired :
    let stages := fun s : State => s.rst.records.map (·.stage)
    let k : PairKey := ⟨4, 0, true, none, false, false⟩
    -- the second candidate, at the end of its window: the first becomes DOWNSTREAM unseen
    finding.rst.candidates.map (·.index) = [5, 6, 7] ∧
      stages (takeEmbossGroup (embossAt 444400) finding) = [.downstream, .downstream, .downstream, .transferred] ∧
      (takeEmbossGroup (embossAt 444400) finding).emc.counts.skipped = 1 ∧
      (takeEmbossGroup (embossAt 444401) finding).emc.counts.unidentified = 1 ∧
      (let late := fun p : Pos => { finding with epu := { finding.epu with d := { finding.epu.d with pos := p } } }
       -- 21,200 + 400,000 + 2,000 + 1,520 + 1
       stages (unseenSweep (late 424721)) = stages finding ∧
         stages (unseenSweep (late 424722)) = [.downstream, .downstream, .transferred, .transferred] ∧
         ((stampSweep (late 320000)).emc.stampFrom = 0 ∧ (stampSweep (late 320001)).emc.stampFrom = 5)) ∧
      -- a phase error of 800 half-counts is not beyond the limit of 400 counts, one of 801 is
      (takeFiducial (1600 + 800) (pairing k 1 .engaged)).emc.overRun = 0 ∧
      (takeFiducial (1600 + 801) (pairing k 1 .engaged)).emc.nip = .lifting ∧
      (takeFiducial (1600 + 801) (pairing k 1 .lifted)).emc.overRun = 3 ∧
      (takeFiducial 1600 (pairing { k with paired := true } 1 .engaged)).emc.counts.unpaired = 1 ∧
      (takeFiducial 1600 (pairing { k with fiducial := false } 0 .engaged)).emc.counts.unpaired = 1 ∧
      (takeFiducial 1600 (pairing { k with fiducial := false } 1 .engaged)).emc.nip = .lifting ∧
      (takeFiducial 1600 (pairing { k with fiducial := false } 1 .engaging)).emc.wrongRun = 2 := by decide

theorem witness_TriggersStartCycles :
    let s := fun p : Pos => { polling [1] with
      epu := { base.epu with d := { base.epu.d with pos := p } }
      shu := { (polling [1]).shu with queue := [⟨4, 9⟩, ⟨5, 20⟩] } }
    let t := shadeSweep (s 10)
    shadeSweep (s 9) = s 9 ∧ (∀ i : Fin 4, i ∈ [(0 : Fin 4), 1, 2, 3] ↔ (s 10).act.heads[i].enabled = true) ∧
      ((0 : Fin 4) :: [1, 2, 3]).Pairwise (· < ·) ∧ ((some (0 : Fin 4)).toList ++ [(1 : Fin 4)]).Nodup ∧
      t.shu.cycle = some ⟨4, 0, [1, 2, 3], some 0, []⟩ ∧ t.shu.queue = [⟨5, 20⟩] ∧ t.shu.sending = [⟨0, 0⟩] ∧
      t.shu.counts.overruns = 1 ∧ t.shu.counts.misses = 1 ∧ t.shu.counts.triggers = 1 ∧ t.shu.timer.running = false ∧
      (∀ i : Fin 4, t.shu.heads[i].counts.cutShort = if i ≤ 1 then 1 else 0) := by decide

/-- A winder in a state with D at a position, and the records 6 and 7 in the store, cut at 100 and 200. -/
def windingAt (st : WinderState) (d : Pos) (armed : Option ArmedCut) : State :=
  let s := withSlot .winding someRoll (inJob .armed)
  let s := withRecords [{ someRecord 6 .downstream with predicted := false },
    { someRecord 7 .downstream with predicted := false }] s
  { s with
    epu := { s.epu with d := { s.epu.d with pos := d } }
    wnc := { s.wnc with
      state := st, winding := some 0, armed, start := .from_ 0, cutStarts := [⟨6, 100⟩, ⟨7, 200⟩], close := .seek 1 } }

/-- That winder with no slot that a roll could take. -/
def noSlot (s : State) : State := { s with wnc := { s.wnc with nextRoll := 4294967296 } }

theorem witness_WinderTakesRecords :
    let dests := fun s : State => s.rst.records.map fun r => r.wnd.map (·.dest)
    let taken := fun st d a => (takeNext (windingAt st d a)).map dests
    let a := fun k c p => some (⟨k, c, p, 10⟩ : ArmedCut)
    (windingAt .winding 101 none).cutStart { someRecord 6 .downstream with predicted := false } = some 100 ∧
      taken .winding 100 none = none ∧ taken .winding 101 none = some [some (.roll 0 1 1), none] ∧
      taken .threading 101 none = some [some .waste, none] ∧
      -- before the closing record, and from it on; before and from the position of a FINAL cut on
      taken .cutArmed 101 (a .target (some 7) 200) = some [some (.roll 0 1 1), none] ∧
      ((takeNext (windingAt .cutArmed 101 (a .target (some 6) 100))).map (·.wnc.held)) = some [6] ∧
      taken .cutArmed 101 (a .final none 101) = some [some (.roll 0 1 1), none] ∧
      taken .cutArmed 101 (a .final none 100) = some [some .waste, none] ∧
      ((wncStep (windingAt .threading 100 none)).bind (·.wnc.armed)) = some ⟨.start, some 6, 100, 100⟩ ∧
      ((wncStep (windingAt .threading 101 none)).map (·.wnc.start)) = some (.from_ 7) ∧
      (let due := { windingAt .threading 11 (a .start (some 6) 100) with
         wnc := { (windingAt .threading 11 (a .start (some 6) 100)).wnc with winding := none, slots := emptySlots } }
       ((wncStep due).map fun t => (t.wnc.state, t.wnc.winding, t.wnc.knifeOn)) = some (.winding, some 0, true) ∧
         ((wncStep (noSlot due)).map fun t => (t.wnc.start, t.wnc.startDeferral)) = some (.from_ 7, 1)) := by decide

/-- A winder with the winding roll's first record 5 taken, and the records 6 and 7 as in `windingAt`. -/
def windingRoll (mode : RollMode) (count : Nat) (armed : Option ArmedCut) (mark : Bool) : State :=
  let s := windingAt (if armed.isSome then .cutArmed else .winding) 50 armed
  let roll := { someRoll with firstIndex := 5, mode, count }
  { withRecords [{ someRecord 5 .assigned with wnd := some ⟨.roll 0 1 1, 0⟩ },
      { someRecord 6 .downstream with jobMark := mark }, someRecord 7 .downstream] s with
    wnc := { s.wnc with slots := emptySlots.set 0 (.used .winding roll) } }

theorem witness_CutsAreArmedFiredAndDeferred :
    let armed := fun s : State => (wncStep s).bind (·.wnc.armed)
    let a := fun k c p => (⟨k, c, p, 10⟩ : ArmedCut)
    let slot := fun s : State => s.wnc.slots[(0 : Fin 12)].roll?.map fun r => (r.count, r.length, r.short, r.overlength, r.extra)
    let due := fun x n => cutDue x (windingRoll .pattern n (some x) false)
    -- the target of 2 is reached by record 7, two after the first; JOB_MARK at record 6 comes before it
    armed (windingRoll .pattern 1 none false) = some ⟨.target, some 7, 200, 200⟩ ∧
      armed (windingRoll .pattern 1 none true) = some ⟨.forced, some 6, 100, 100⟩ ∧
      armed (windingRoll .length 1 (some (a .length none 101)) true) = some ⟨.forced, some 6, 100, 100⟩ ∧
      ((due (a .target (some 6) 100) 1).wnc.state = .knife ∧
        slot (due (a .target (some 6) 100) 1) = some (1, some 100, true, false, 0) ∧
        (due (a .target (some 6) 100) 1).wnc.follows = some ⟨.roll, 6, 100, false, .from_ 0⟩) ∧
      -- 4 repeats are fewer than the minimum roll of 5
      (due (a .final none 0) 4).wnc.slots[(0 : Fin 12)] = .free ∧ slot (due (a .final none 0) 5) ≠ none := by decide

/-- A cut that no roll could follow is deferred, and LOST arms the LENGTH cut at 400,000 counts from the start. -/
theorem witness_CutsAreDeferredAndLost :
    let x : ArmedCut := ⟨.target, some 6, 100, 10⟩
    let t := cutDue x (noSlot (windingRoll .pattern 1 (some x) false))
    (t.wnc.close, t.wnc.armed) = (.next 7, none) ∧
      (t.wnc.slots[(0 : Fin 12)].roll?.map fun r => (r.overlength, r.extra)) = some (true, 1) ∧
      ((wncLost (windingRoll .pattern 1 none false)).wnc.armed.map (·.cutPos)) = some 400000 ∧
      wncLost (windingRoll .length 1 none false) = windingRoll .length 1 none false := by decide

/-! ### Witnesses of the clauses about the store, stamps, batches, labels and the end of a job -/

/-- A state with its store full. -/
def fullStore (s : State) : State := withRecords (List.replicate 512 (someRecord 4 .created)) s

/-- With a full store a repeat goes unrecorded, alone or at the lock; after a gap the next record says so. -/
theorem witness_repeats_unrecorded_and_after_a_gap :
    let k := fun p c => keyGroup defaultSettings (keyAt p c)
    let t := takePrintGroup (keyAt 21000 5) (fullStore (tracking .locked))
    let locks := takePrintGroup (keyAt 42400 5) (fullStore (searching [k 0 3, k 21200 4]))
    let w := expireWindow ⟨42400, 636, false⟩ (fullStore (tracking .locked))
    let gap := fun s : State => { s with rtk := { s.rtk with gapPending := true } }
    let flags := fun s : State => s.rst.records.map (·.gapBefore)
    (t.rtk.counts.unrecorded = 2 ∧ t.link.notices.map (·.body) = [.storeFull 5] ∧
      t.rtk.gapPending = true ∧ t.rtk.last.map (·.index) = some 6 ∧ t.rlu = base.rlu) ∧
      (locks.rtk.counts.unrecorded = 3 ∧ locks.rtk.state = .locked ∧ locks.rlu = base.rlu) ∧
      (w.rtk.counts.unrecorded = 1 ∧ w.rtk.storeFull = true ∧ w.rtk.state = .coasting) ∧
      flags (takePrintGroup (keyAt 21000 5) (gap (tracking .locked))) = [false, true, false] ∧
      flags (takePrintGroup (keyAt 21000 4) (gap (tracking .locked))) = [false, true] ∧
      flags (expireWindow ⟨42400, 636, false⟩ (gap (tracking .locked))) = [false, true] := by decide

/-- A repeat at half-count 20,000 passes the splice before it, covers the next two, and not those a reference
length of 21,200 counts on or in WATCH; unrecorded it stamps none. -/
theorem witness_splices_are_stamped :
    let n := groupRepeat 5 (keyGroup defaultSettings (keyAt 10000 0))
    let queue := [9999, 10000, 31199, 31200].map fun p => (⟨p, .waiting, none⟩ : Splice)
    let s := { base with rtk := { base.rtk with splices := queue } }
    let waits := fun t : State => t.rtk.splices.map fun x => (x.phase, x.stamp)
    n.centre = 20000 ∧ s.lRef = 21200 ∧
      waits (assign n s) = [(.watch, none), (.watch, some 5), (.watch, some 5), (.waiting, none)] ∧
      (assign n s).rtk.counts.unstamped = 1 ∧ (assign n s).rst.records.map (·.splice) = [some 0] ∧
      (assign n (withRecords [] { s with rtk := { s.rtk with splices := queue.drop 2 } })).rst.records.map (·.splice) =
        [some 42398] ∧
      (assign n { s with rtk := { s.rtk with splices := queue.drop 3 } }).rst.records.map (·.splice) = [none] ∧
      waits (assign n (fullStore s)) = [(.watch, none), (.watch, none), (.watch, none), (.waiting, none)] ∧
      (assign n (fullStore s)).rtk.counts.unstamped = 3 := by decide

/-- A key mark at half-count 0 and the mark of station 2 six half-counts beyond its nominal. -/
def marked : Mark × Vector (Option Mark) 7 :=
  (⟨0 - 100, 100⟩, noMarks.set 0 (some ⟨2303, 2503⟩))

/-- A record with marks gives each loop its error or a miss; without marks a miss; a splice's nothing. -/
theorem witness_records_give_errors :
    let on := fun s : State => { s with
      act := { s.act with reader := { s.act.reader with stations := 3 } }
      rlu := ⟨Vector.ofFn fun _ => { Loop.reset with state := .fill, lastGood := some 9 }⟩ }
    let s := on (withRecords [someRecord 5 .created] base)
    let r := someRecord 5 .created
    let histories := fun t : State => (t.rlu.loops[(0 : Fin 8)].history, t.rlu.loops[(1 : Fin 8)].history, t.rlu.loops[(7 : Fin 8)].history)
    let t := rluTake r (some marked) s
    defaultReader.nominal[(0 : Fin 7)] = 2400 ∧
      histories t = ([6], [9], []) ∧
      (t.rst.records.map fun x => x.reg.map fun g => (g.errors[(0 : Fin 7)], g.errors[(1 : Fin 7)], g.out)) =
        [some (some 6, none, true)] ∧
      histories (rluTake r none s) = ([9], [9], []) ∧ (rluTake r none s).rst = s.rst ∧
      histories (rluTake { r with splice := some 0 } (some marked) s) = ([], [], []) := by decide

/-- Two batches at one distance from a shade, the second of the lower number; eight OPEN ones; and eight of which
the third and the fourth are CLOSED. -/
def tie : State :=
  { base with gru := { base.gru with
      table := (emptyBatches.set 1 (some { openB 7 with l := 4990 })).set 2 (some { openB 3 with l := 5010 }) } }

/-- A table of eight batches numbered from 1, last used in that order, with the CLOSED ones given. -/
def eight (closed : Fin 8 → Option (BitVec 32)) : State :=
  withSlot .cut someRoll { base with gru := { base.gru with
    table := Vector.ofFn fun e => some { openB (e.val + 1) with
      l := 0, lastUse := BitVec.ofNat 32 (e.val + 1), closed := (closed e).map fun x => (x, .host) }
    use := 20, nextBatch := 1 } }

theorem witness_batches_are_chosen :
    let shade : RollShade := ⟨5000, 0, 0, 0⟩
    let numbers := fun s : State => (places8.map fun e => (s.gru.table[e].map (·.number)).getD 0)
    let place := fun s => placeBatch 0 someRoll shade (withSlot .cut someRoll s)
    let batchOf := fun s : State => s.wnc.slots[(0 : Fin 12)].roll?.bind (·.batch)
    let lru := placeBatch 0 someRoll shade (eight fun _ => none)
    let old := placeBatch 0 someRoll shade (eight fun e => if e = 2 then some 9 else if e = 3 then some 8 else none)
    -- ΔE 10 from both: the lower number, joined in its entry
    (deltaE 5000 0 0 4990 0 0 = 10 ∧ batchOf (place tie) = some ⟨3, 10⟩ ∧ numbers (place tie) = [0, 7, 3, 0, 0, 0, 0, 0]) ∧
      batchOf (place base) = some ⟨1, 0⟩ ∧ numbers (place base) = [1, 0, 0, 0, 0, 0, 0, 0] ∧
      -- the batch of entry 1 is the least recently used, and its number is free once it is CLOSED
      (batchOf lru = some ⟨1, 0⟩ ∧ lru.gru.counts.lru = 1 ∧ lru.gru.use = 22 ∧ lru.gru.nextBatch = 2) ∧
      -- the CLOSED batch of greatest age is lost, and the other one, which holds the number taken, is emptied
      (numbers old = [1, 2, 0, 3, 5, 6, 7, 8] ∧ batchOf old = some ⟨3, 0⟩) := by decide

/-- R166: a label of every field, with an empty design name and no batch. -/
theorem witness_label_text :
    let all : List FieldCode := [.roll, .design, .dnum, .batch, .grade, .len, .reps, .match_, .short, .defects]
    let j := { defaultSettings with templates := defaultSettings.templates.set 0 all
                                    label := { defaultSettings.label with normalTemplate := 0, designName := Vector.replicate _ 0x20 } }
    let r := { someRoll with number := 1207, design := 5, grade := some .b, length := some 403750, count := 19, short := true }
    composeLabel j r = "1207;;5;R;B;1009;19;0;S;0".toList.map (fun c => BitVec.ofNat 8 c.toNat) ++ [0x0D] := by decide

/-- A change of the tolerance of a key window is no geometry; one of its nominal repeat is. -/
theorem witness_geometry :
    let j := defaultSettings
    sameGeometry j { j with track := { j.track with tolerance := j.track.tolerance + 1 } } = true ∧
      sameGeometry j { j with track := { j.track with nominalRepeat := 21201 } } = false ∧
      sameGeometry j { j with winder := { j.winder with matchOffset := 1 } } = false := by decide

/-- With no head enabled a trigger starts a cycle that ends at once, as a miss. -/
theorem witness_trigger_with_no_head :
    let s := { base with
      act := { base.act with heads := Vector.ofFn fun i => { base.act.heads[i] with enabled := false } }
      epu := { base.epu with d := { base.epu.d with pos := 10 } }
      shu := { (polling [1]).shu with queue := [⟨4, 9⟩, ⟨5, 20⟩] } }
    let t := shadeSweep s
    (∀ i : Fin 4, s.act.heads[i].enabled = false) ∧ t.shu.cycle = none ∧ t.shu.queue = [⟨5, 20⟩] ∧
      t.shu.triggerOut = true ∧ t.shu.sending = [] ∧ t.shu.nextSeq = 1 ∧
      (t.shu.counts.triggers, t.shu.counts.overruns, t.shu.counts.misses) = (1, 1, 2) ∧
      (∀ i : Fin 4, t.shu.heads[i].counts.cutShort = if i ≤ 1 then 1 else 0) := by decide

/-- A winder in a job that is draining. -/
def draining (s : State) : State := { s with job := { s.job with state := .draining } }

/-- The FINAL cut stands at the last record's cut start of 200 and a mean repeat of 21,200, or its L_D. -/
theorem witness_final_cut_is_armed :
    let s := draining (windingRoll .pattern 1 none false)
    let roll : Roll := { someRoll with firstIndex := 5, target := 3, count := 1 }
    let far := { s with wnc := { s.wnc with slots := emptySlots.set 0 (.used .winding roll) } }
    let armed := fun s : State => (wncStep s).bind (·.wnc.armed)
    let long := draining (windingRoll .length 1 (some ⟨.length, none, 300, 200⟩) false)
    let l := fun x => { far with rst := { far.rst with records := far.rst.records.map fun r => { r with emb := some { Emb.blank with lD := x } } } }
    far.meanRepeat = 21200 ∧ armed far = some ⟨.final, none, 21400, 21400⟩ ∧
      armed (l (some 1000)) = some ⟨.final, none, 1200, 1200⟩ ∧ armed long = some ⟨.final, none, 21400, 21400⟩ ∧
      -- in a job that is still ARMED nothing is armed
      ((wncStep { far with job := { far.job with state := .armed } }).bind (·.wnc.armed)) = none := by decide

/-- A winder in a state, with D at a position, a stop requested and one record, which is taken to waste. -/
def lastOfJob (st : WinderState) (d : Pos) : State :=
  let s := withRecords [{ someRecord 6 .assigned with wnd := some ⟨.waste, 100⟩ }] (inJob .armed)
  { s with
    epu := { base.epu with d := { base.epu.d with pos := d } }
    wnc := { base.wnc with state := st, start := .from_ 0, waste := some (6, 6), stopOn := true, gateOpen := false } }

/-- The waste run of a job that has ended is freed when D has passed its last record, or by a JOB END taken when
every record is. -/
theorem witness_threading_ends :
    let ended := fun t : State => t.wnc.state = .idle ∧ t.wnc.gateOpen = true ∧ t.wnc.waste = none ∧
      t.wnc.stopOn = false ∧ t.rst.records = []
    let next := fun s => (wncStep s).getD base
    wncStep (draining (lastOfJob .threading 21300)) = none ∧
      ended (next (draining (lastOfJob .threading 21301))) ∧
      ended (next { draining (lastOfJob .threading 0) with rst := base.rst }) ∧
      ended (after (.jobEnd 1) (lastOfJob .threading 0)) ∧
      (after (.jobEnd 1) (lastOfJob .threading 0)).job.state = .ready ∧
      (after (.jobEnd 1) (lastOfJob .idle 0)).wnc.state = .idle ∧
      (after (.jobEnd 1) (lastOfJob .indexing 0)).wnc.state = .indexing := by decide

/-- A cut that fires takes the records before it that are not yet taken, and clears a stop request. -/
theorem witness_cut_takes_the_records_before_it :
    let x : ArmedCut := ⟨.target, some 7, 200, 10⟩
    let s := windingRoll .pattern 1 (some x) false
    let t := cutDue x { s with wnc := { s.wnc with stopOn := true } }
    t.rst.records.map (fun r => (r.stage, r.wnd.map (·.dest))) = [(.closed, some (.roll 0 1 1)),
        (.closed, some (.roll 0 1 2)), (.downstream, none)] ∧
      (t.wnc.slots[(0 : Fin 12)].roll?.map fun r => (r.count, r.length, r.short)) = some (2, some 200, false) ∧
      t.wnc.stopOn = false ∧ t.link.notices.map (·.body) =
        [.rollCut 0 1 2 200 .pattern false false false 0, .stopOff] := by decide

/-- At a run of 15 a wrong repeat or a phase error counts no further, and is tested all the same. -/
theorem witness_runs_stop_at_15 :
    let k : PairKey := ⟨4, 0, true, none, false, false⟩
    let s := { pairing k 1 .engaged with emc := { (pairing k 1 .engaged).emc with wrongRun := 15, overRun := 15 } }
    let w := { s with emc := { s.emc with pairKey := some { k with fiducial := false } } }
    (takeFiducial 1600 w).emc.nip = .lifting ∧ (takeFiducial (1600 + 801) s).emc.nip = .lifting ∧
      (takeFiducial (1600 + 801) { s with emc := { s.emc with nip := .lifted } }).emc.overRun = 15 := by decide

/-- THREADING with no start cut armed, and a record 6 that carries SPLICE. -/
def splicedStart : State :=
  let s := windingAt .threading 50 none
  { s with
    rst := { s.rst with records := [{ someRecord 6 .created with splice := some 0 }, someRecord 7 .created] }
    wnc := { s.wnc with start := .from_ 0, cutStarts := [] } }

/-- R133: a record with SPLICE that a count of U has made is passed over in that event. -/
theorem test_splice_start_record_is_passed_over :
    (after (.encoderCount .print .forward) splicedStart).wnc.start = .cutOut 6 1 ∧
      (nameStart { splicedStart with rst := { splicedStart.rst with records := [someRecord 7 .created] } }).wnc.start =
        .from_ 0 ∧ splicedStart.wnc.state = .threading := by decide

/-- R135: with the closing record taken at the start of a LENGTH roll, the first record not yet taken closes it. -/
theorem test_passed_closing_record_in_length_mode :
    let s := turned .roll base
    let s := { s with
      rst := { s.rst with records :=
        [someRecord 6 .downstream, { someRecord 7 .downstream with jobMark := true }, someRecord 8 .downstream] }
      wnc := { s.wnc with held := [6, 7], follows := some ⟨.roll, 6, 0, true, .from_ 0⟩ } }
    let t := after .turretTimerExpiry s
    t.wnc.close = .next 8 ∧ t.wnc.counts.deferrals = 1 ∧
      (t.wnc.slots[0].roll?.map fun r => (r.mode, r.overlength, r.extra)) = some (.length, true, 1) := by decide

/-- R136, R142: a FINAL cut armed far behind D with a slot in CUT is moved on past D in that event. -/
theorem test_final_cut_far_behind :
    let s := windingRoll .pattern 1 (some ⟨.final, none, 0, 0⟩) false
    let s := { s with
      epu := { s.epu with d := { s.epu.d with pos := 6400000 } }
      rst := { s.rst with records := [] }
      wnc := { s.wnc with slots := s.wnc.slots.set 1 (.used .cut someRoll) } }
    (wncSettle s).wnc.armed.map (·.cutPos) = some 6402400 := by decide +kernel

/-- A state whose D has moved by a number of counts since the last measurement. -/
def moving (v : Pos) (s : State) : State :=
  { s with epu := { s.epu with d := { s.epu.d with pos := v, measuredAt := 0 } } }

theorem witness_speed_measurement_acts :
    let lifted := after .speedMeasurement (moving 249 (withNip .engaged (inJob .armed)))
    let auto := { inJob .armed with
      emc := { base.emc with autoPending := true }
      act := { base.act with emboss := { base.act.emboss with autoEngage := true } } }
    let engaged := after .speedMeasurement (moving 250 auto)
    (lifted.emc.nip = .lifting ∧ lifted.emc.lastLift = .speed ∧ lifted.emc.timer.current = 300 ∧
      lifted.link.sending = some (.notice ⟨0, 0, .nip .engaged .lifting .speed 249⟩)) ∧
    (engaged.emc.nip = .engaging ∧ engaged.emc.autoPending = false ∧ engaged.emc.timer.current = 450 ∧
      engaged.link.sending = some (.notice ⟨0, 0, .nip .lifted .engaging .auto 250⟩)) ∧
    (after .speedMeasurement (moving 249 auto)).emc.nip = .lifted ∧
    -- 800 counts per 10 ms in the knife time of 12.5 ms (R136)
    (after .speedMeasurement (moving 800 (windingRoll .pattern 1 (some ⟨.target, some 7, 5000, 3750⟩) false))).wnc.armed =
      some ⟨.target, some 7, 5000, 4000⟩ := by decide

/-- R77, R78: L8 checks its own capture of 200 counts, tells that it left COAST, and issues to T8. -/
theorem witness_emboss_loop_takes_its_input :
    let l := { Loop.reset with state := .fill, history := List.replicate 6 100 }
    let s := withLoop 7 l base
    let t := takeInput 7 (.sample 100) 4 s
    s.act.filters[s.act.loops[(7 : Fin 8)].filterSet]? = some ⟨.odd7, 32, 64, 96, 128⟩ ∧
      (t.rlu.loops[(7 : Fin 8)].state = .settle ∧ t.tou.trims[(7 : Fin 8)].pending = -50 ∧
        t.tou.trims[(6 : Fin 8)].pending = 0 ∧ t.link.notices = []) ∧
      (takeInput 7 (.sample 401) 4 s).rlu.loops[(7 : Fin 8)].missRun = 1 ∧
      (takeInput 7 (.sample 400) 4 (withLoop 7 { Loop.reset with state := .coast } base)).link.notices.map (·.body) =
        [.loop 7 .coast .fill .sample 4] := by decide

/-- An A with a second roll in the queue sends that roll's label; the last one of a job that is draining ends it. -/
theorem witness_confirmed_with_more_and_while_draining :
    let s := labelling .await
    let q := { someRoll with number := 2 }
    let two := { s with
      wnc := { s.wnc with slots := s.wnc.slots.set 1 (.used .labelPending q), nextRoll := 3 }
      lbu := { s.lbu with queue := [0, 1] } }
    let drain := fun s : State => { s with job := { s.job with state := .draining } }
    let t := after (.labellerByteReceived 0x41) (drain two)
    (two.wnc.slots[(1 : Fin 12)] = .used .labelPending q ∧ (drain s).wnc.state = .idle) ∧
      (t.lbu.state = .await ∧ t.lbu.queue = [1] ∧ t.lbu.composed = some (composeLabel base.act q) ∧
        t.job.state = .draining ∧ t.lbu.counts.sent = 1) ∧
      (after (.labellerByteReceived 0x41) (drain s)).job.state = .ready ∧
      (after (.labellerByteReceived 0x42) (drain s)).job.state = .draining := by decide

/-- Contents that stand for settings, laid out and replaced. -/
theorem witness_group_contents :
    let j := { defaultSettings with countsPerMetre := 80000 }
    j.valid = true ∧ GroupLaidOut j .scale [0x80, 0x38, 0x01] ∧ GroupReplaced defaultSettings j .scale ∧
      setGroup defaultSettings [0x80, 0x38, 0x01] .scale = some j := by
  refine ⟨by decide, ⟨rfl, ?_⟩, rfl, by decide⟩
  unfold holdsNumber
  decide

/-- R178: a shade head with gain 4,096 and the offsets −1, 2 and −2,000, and a template of two fields. -/
theorem test_group_bytes :
    headBytes ⟨true, 4096, -1, 2, -2000⟩ = [1, 0x00, 0x10, 0xFF, 0xFF, 2, 0, 0x30, 0xF8] ∧
      templateBytes [.defects, .roll] = [10, 1, 0, 0, 0, 0, 0, 0, 0, 0] := by decide

/-- At the coast limit of 3 the third prediction in a row is made, and L1 goes from its miss to COAST. -/
theorem witness_window_expiry_at_the_limit :
    let l := { Loop.reset with state := .track, history := [5], lastGood := some 5 }
    let s := withRecords [someRecord 4 .created] (withLoop 0 l base)
    let s := { s with rtk := { s.rtk with
      state := .coasting, last := some ⟨4, 0, none, false⟩, nextIndex := 5, predictedRun := 2 } }
    let t := expireWindow ⟨42400, 636, false⟩ s
    t.rst.records.map (fun r => (r.index, r.predicted, r.keyU)) = [(4, true, 0), (5, true, 42400)] ∧
      (t.rlu.loops[(0 : Fin 8)].state = .coast ∧ t.rlu.loops[(0 : Fin 8)].missRun = 1) ∧
      t.rtk.state = .search ∧ t.link.notices.map (·.body) =
        [.track .coasting .lost 6 0, .loop 0 .fill .coast .lost 6, .track .lost .search 6 0] := by decide

/-- A record made closing at the start of a LENGTH roll replaces the LENGTH cut when it comes before it. -/
theorem witness_next_closing_record_replaces_the_length_cut :
    let s := fun p => windingRoll .length 1 (some ⟨.length, none, p, p⟩) false
    let t := fun p => { s p with wnc := { (s p).wnc with close := .next 7 } }
    ((wncStep (t 201)).bind (·.wnc.armed)) = some ⟨.target, some 7, 200, 200⟩ ∧
      ((wncStep (t 200)).bind (·.wnc.armed)) = none := by decide

/-! ### Witnesses of the clauses that the statements gained last -/

/-- One state in which every reading order names what there is. -/
theorem witness_reading_orders_complete :
    let s := withRecords [someRecord 4 .created] (withSlot .cut someRoll (stored batches))
    Takeable s ∧ (s.store.jobs[(0 : Fin 4)] = some defaultSettings ∧ (9 : Byte).toNat ≤ 9 ∧ (36 : Byte).toNat ≤ 36 ∧
      (8 : Byte).toNat ≤ 8 ∧ (∃ r ∈ s.rst.records, r.index = (4 : BitVec 32).toNat) ∧ s.rst.records ≠ [] ∧
      (∃ r ∈ s.rst.records, (3 : BitVec 32).toNat < r.index) ∧ (11 : BitVec 32).toNat < 12 ∧
      (7 : BitVec 16).toNat < 8) ∧ holdsRoll s 0 .cut (1 : BitVec 32).toNat ∧
      s.gru.table[(0 : Fin 8)] = some (openB (1 : BitVec 16).toNat) :=
  ⟨takes rfl rfl, by decide, ⟨someRoll, rfl, rfl⟩, rfl⟩

/-- Two runs removed: the record after each has the gap before it, and the oldest has not. -/
theorem witness_gap_after_each_run :
    let rs := [3, 4, 5, 6, 7, 8].map fun i => someRecord i .closed
    (freeWhere (fun r => r.index = 4 || r.index = 7) rs).map (fun r => (r.index, r.gapBefore)) =
        [(3, false), (5, true), (6, false), (8, true)] ∧
      (freeWhere (fun r => r.index ≤ 4) rs).map (fun r => (r.index, r.gapBefore)) =
        [(5, false), (6, false), (7, false), (8, false)] := by decide

theorem witness_gaps_marked : gapsMarked (freeWhere (fun r => r.index = 4) ([3, 4, 5].map fun i => someRecord i .closed)) ∧
    ¬ gapsMarked [someRecord 3 .closed, someRecord 5 .closed] := by
  refine ⟨⟨.inr (by decide), trivial⟩, fun h => ?_⟩
  rcases h.1 with h | h <;> cases h

/-- R34, R46: the store full and the record before CLOSED, STORE_FULL comes first (log entry 13); and a key in
COASTING tells that it locks. -/
theorem witness_notices_of_a_key :
    let notices := fun s : State => (takePrintGroup (keyAt 21000 4) s).link.notices.map (·.body)
    let closed := withRecords (List.replicate 512 (someRecord 4 .closed)) (tracking .locked)
    notices closed = [.storeFull 5, .lateWrite .header 4 0] ∧
      notices (tracking .coasting) = [.track .coasting .locked 6 22000] := by decide

/-- R120: the eighth failure in a row, an answer of a head that was ABSENT, and a lamp that changes. -/
theorem witness_head_notices :
    let heads := fun (h : Head) (s : State) => { s with shu := { s.shu with heads := s.shu.heads.set 0 h } }
    let first := fun s : State => s.link.sending.map fun x => match x with
      | .notice n => some n.body
      | .answer _ => none
    let absent := { Head.reset with failures := 8, absent := true }
    let answer := fun (status last : Byte) (s : State) =>
      headByte last { s with shu := { s.shu with answer := [0xE8, 1, 7, status, 0, 0, 0, 0, 0, 0] } }
    first (after .headTimeoutExpiry (heads { Head.reset with failures := 7 } (pollOut [1]))) =
        some (some (.head 0 .absent 7 0)) ∧
      first (after .headTimeoutExpiry (heads absent (pollOut [1]))) = none ∧
      (answer 1 0xF6 (heads absent (polling [1]))).link.notices.map (·.body) =
        [.head 0 .restored 7 0, .head 0 .lampOn 7 0] ∧
      (answer 0 0xF7 (heads { Head.reset with lamp := true } (polling [1]))).link.notices.map (·.body) =
        [.head 0 .lampOff 7 0] := by decide

/-- ARM and JOB ABORT tell of every loop that they take out of COAST, from L1 on, and free what they tell. -/
theorem witness_orders_with_loops_in_coast :
    let coast := { Loop.reset with state := .coast }
    let s := fun j => withLoop 5 coast (withLoop 1 coast (inJob j))
    let told := fun t : State => (t.free, t.link.notices.filterMap fun n => match n.body with
      | .loop i old new _ _ => some (i, old, new)
      | _ => none)
    inCoast (s .ready) (List.finRange 8) = [1, 5] ∧
      told (after (.arm 1) (s .ready)) = (2, [(1, .coast, .fill), (5, .coast, .fill)]) ∧
      told (after (.jobAbort 1) (s .armed)) = (2, [(1, .coast, .off), (5, .coast, .off)]) ∧
      -- the default settings have station 2 alone: L2 and L6 are beyond the last
      told (after (.jobLoad 1 0) (stored (s .standby))) = (2, [(1, .coast, .off), (5, .coast, .off)]) := by decide

/-- A roll in CUT behind one whose label awaits its reply. -/
def cutBehind : State :=
  let s := labelling .await
  { s with wnc := { s.wnc with
      slots := s.wnc.slots.set 1 (.used .cut { someRoll with number := 2, firstIndex := 5 }), nextRoll := 3 } }

/-- Which slot of that state holds what. -/
theorem holds_cutBehind {i : Fin 12} {p : SlotPhase} {n : Nat} (h : holdsRoll cutBehind i p n) :
    (i = 0 ∧ p = .labelPending ∧ n = 1) ∨ (i = 1 ∧ p = .cut ∧ n = 2) := by
  have all : ∀ j : Fin 12, (cutBehind.wnc.slots[j].roll?.map (·.number)) =
      (if j = 0 then some 1 else if j = 1 then some 2 else none) ∧
      (j = 0 → cutBehind.wnc.slots[j].inPhase .labelPending = true) ∧
      (j = 1 → cutBehind.wnc.slots[j].inPhase .cut = true) := by decide
  obtain ⟨r, h, rfl⟩ := h
  have a := all i
  rw [h] at a
  simp only [Slot.roll?, Slot.inPhase, Option.map_some, beq_iff_eq] at a
  by_cases h0 : i = 0
  · simp only [h0, if_true, true_implies, Option.some.injEq] at a
    exact .inl ⟨h0, a.2.1, a.1⟩
  · by_cases h1 : i = 1
    · simp only [h1, if_true, true_implies] at a
      exact .inr ⟨h1, a.2.2, Option.some.inj a.1⟩
    · simp [h0, h1] at a

theorem witness_doff_while_a_label_waits :
    LabelsInOrder cutBehind ∧ cutBehind.lbu.state ≠ .idle ∧
      (after .doffPulse cutBehind).lbu.queue = [0, 1] ∧
      (after .doffPulse cutBehind).gru.counts.gradedR = 1 ∧ (after .doffPulse cutBehind).gru.counts.unknown = 1 := by
  refine ⟨⟨fun i => ⟨fun h => ?_, ?_⟩, List.pairwise_singleton _ _, ?_, ?_, ?_, ?_, fun h => (by cases h)⟩, by decide⟩
  · have h : i ∈ [(0 : Fin 12)] := h
    rw [List.mem_singleton.mp h]; exact ⟨1, someRoll, rfl, rfl⟩
  · rintro ⟨n, h⟩
    rcases holds_cutBehind h with ⟨rfl, _⟩ | ⟨_, h, _⟩
    · exact List.mem_singleton.mpr rfl
    · cases h
  · intro i n h j m h'
    rcases holds_cutBehind h with ⟨_, hp, _⟩ | ⟨_, _, rfl⟩
    · cases hp
    · rcases holds_cutBehind h' with ⟨_, _, rfl⟩ | ⟨_, hp, _⟩
      · decide
      · cases hp
  · intro i n h j m h'
    rcases holds_cutBehind h with ⟨_, hp, _⟩ | ⟨rfl, _, _⟩
    · cases hp
    · rcases holds_cutBehind h' with ⟨_, hp, _⟩ | ⟨rfl, _, _⟩
      · cases hp
      · rfl
  · intro i n h
    rcases holds_cutBehind h with ⟨_, hp, _⟩ | ⟨_, hp, _⟩ <;> cases hp
  · intro i p n h
    rcases holds_cutBehind h with ⟨_, _, rfl⟩ | ⟨_, _, rfl⟩ <;> decide

/-- R144: the LENGTH cut stays for a JOB_MARK record whose cut start lies at it, and gives way to one before it. -/
theorem witness_length_cut_stays :
    let s := fun p => windingRoll .length 1 (some ⟨.length, none, p, p⟩) true
    wncStep (s 100) = takeNext (s 100) ∧ takeNext (s 100) = none ∧
      ((wncStep (s 101)).bind (·.wnc.armed)) = some ⟨.forced, some 6, 100, 100⟩ := by decide

/-- The end of draining closes the OPEN batches and lifts the nip, and a stop request is cleared before it. -/
theorem witness_drained_job :
    let s := withNip .engaged (turned .end_ { inJob .draining with gru := batches.gru })
    let t := after .turretTimerExpiry { s with wnc := { s.wnc with stopOn := true } }
    t.job.state = .ready ∧ t.gru.table[(0 : Fin 8)] = some { openB 1 with closed := some (1, .job) } ∧
      t.emc.nip = .lifting ∧ t.link.notices.map (·.body) =
        [.nip .engaged .lifting .job 0, .batchClosed 1 0 .job 1 1, .job .draining .ready .drained] := by decide

/-! ### Witnesses of the clauses about orders that wait, the watch list, and what is due at the winder -/

/-- R174: behind 7 answers left by the frame that has begun, one of three orders is taken, and behind 6, two. -/
theorem witness_orders_taken_in_turn :
    let s := fun n => { holding n with link := { (holding n).link with orders := [⟨1, 1, []⟩, ⟨2, 2, [0]⟩, ⟨2, 3, [9]⟩] } }
    let after_ := fun n => let t := after .frameTransmitted (s n)
      (t.link.orders.map (·.tag), (t.link.answers.drop (n - 1)).map (·.tag))
    after_ 8 = ([2, 3], [1]) ∧ after_ 7 = ([3], [1, 2]) ∧ after_ 2 = ([], [1, 2, 3]) ∧
      (s 2).link.answers.length < 8 ∧ ofFrame ⟨2, 2, [0]⟩ = some (.status 2 0) ∧ ofFrame ⟨2, 2, []⟩ = none := by decide

/-- R108: a JOB SET in READY that moves the lift point of 300,000 onto the present D has the count that passes it lift
the nip; one that moves it behind D leaves it passed. -/
theorem test_jobSet_moves_a_lift_point :
    let s := { inJob .ready with
      epu := { base.epu with d := { base.epu.d with pos := 300500 } }
      emc := { base.emc with watch := [⟨0, none, true⟩] } }
    let t := fun lead => after (.jobSet 1 23 (groupBytes { defaultSettings with
      emboss := { defaultEmboss with liftLead := lead } } .emboss)) s
    let engaged := fun x : State => { x with job := { x.job with state := .armed }, emc := { x.emc with nip := .engaged } }
    (t 19500).emc.watch = [⟨0, none, false⟩] ∧ (t 19501).emc.watch = [⟨0, none, true⟩] ∧
      (after (.encoderCount .wind .forward) (engaged (t 19500))).emc.nip = .lifting ∧
      (t 19500).act.emboss.liftLead = 19500 := by decide

/-- A job with D at a position, auto-engage on, and a splice that the nip was lifted for. -/
def behindSplice (d : Pos) (v : Int) : State :=
  { inJob .armed with
    epu := { base.epu with d := { base.epu.d with pos := d, speed := v } }
    act := { defaultSettings with emboss := { defaultEmboss with autoEngage := true } }
    emc := { base.emc with lastLift := .splice, watch := [⟨0, none, true⟩, ⟨1, some 4, true⟩] } }

/-- R108, R109: the lift at a lift point, and the auto-engage at a departure point, tried or left pending. -/
theorem witness_watch_list_at_a_count :
    let on := { behindSplice 300001 250 with emc := { base.emc with nip := .engaged, watch := [⟨0, none, false⟩] } }
    let left := fun v => watchSweep (behindSplice 340001 v)
    ((watchSweep on).emc.nip = .lifting ∧ (watchSweep on).emc.lastLift = .splice ∧
      (watchSweep on).emc.watch = [⟨0, none, true⟩] ∧
      (watchSweep on).link.notices.map (·.body) = [.nip .engaged .lifting .splice 300001]) ∧
      ((left 250).emc.watch = [⟨1, some 4, true⟩] ∧ (left 250).emc.nip = .engaging ∧
        (left 250).link.notices.map (·.body) = [.nip .lifted .engaging .auto 340001]) ∧
      ((left 249).emc.nip = .lifted ∧ (left 249).emc.autoPending = true) ∧
      (∀ w ∈ (behindSplice 340001 250).emc.watch,
        w.liftPassed = passed 340001 ((behindSplice 340001 250).act.emboss.liftPoint w)) := by decide

/-- R38, R108: two splices handed over at one count stand in their order, and one more than 4 is lost with its notice. -/
theorem witness_two_splices_handed_over :
    let s := { transferring with rtk := { transferring.rtk with splices := [⟨0, .watch, some 4⟩, ⟨0, .waiting, none⟩] } }
    let three := { s with emc := { s.emc with nip := .engaged, watch := List.replicate 3 ⟨0, none, true⟩ } }
    (spliceSweep s).emc.watch = [⟨1200001, some 4, false⟩, ⟨1200001, none, false⟩] ∧
      (spliceSweep s).rtk.counts.unstamped = 1 ∧ (spliceSweep three).emc.lastLift = .spliceLost ∧
      (spliceSweep three).link.notices.map (·.body) =
        [.spliceLostWatch 1200001 none, .nip .engaged .lifting .spliceLost 1200001] := by decide

theorem witness_oldest_record_is_transferred :
    StoreOrdered transferring ∧ (transferring.rst.records.find? fun x => x.stage == .created) = some (someRecord 4 .created) ∧
      0 < halfDiff (half transferring.epu.u.pos) (halfShift (someRecord 4 .created).keyU 2400000) := by
  refine ⟨⟨by decide, ⟨by decide, trivial⟩, fun r h => ⟨_, rfl, ?_⟩⟩, by decide⟩
  revert r; decide

/-- R147: the job ends with the winder IDLE and only LABELLED rolls, and not before. -/
theorem witness_drained_report :
    let s := withSlot .labelled someRoll (inJob .draining)
    (checkDrained s).job.state = .ready ∧ checkDrained (withSlot .cut someRoll s) = withSlot .cut someRoll s ∧
      checkDrained (inJob .armed) = inJob .armed := by decide

/-- R132, R133, R135, R140: where nothing but the taking of a record is due, and where nothing is. -/
theorem witness_winder_waits :
    let armed := some (⟨.start, some 7, 200, 150⟩ : ArmedCut)
    let s := fun st d a => windingAt st d a
    let unplaced := fun x : State => { x with wnc := { x.wnc with cutStarts := [⟨6, 100⟩] } }
    let closed := unplaced (windingRoll .pattern 1 none false)
    let after_ := { closed with epu := { closed.epu with d := { closed.epu.d with pos := 101 } } }
    wncStep (s .idle 101 none) = none ∧ wncStep (s .knife 101 none) ≠ none ∧
      wncStep (s .indexing 101 none) = takeNext (s .indexing 101 none) ∧
      wncStep (s .threading 150 armed) = takeNext (s .threading 150 armed) ∧
      takeNext (s .threading 150 armed) ≠ none ∧
      -- a start record without a cut start, and a cut-out whose record is not made
      wncStep { s .threading 50 none with wnc := { (s .threading 50 none).wnc with cutStarts := [] } } = none ∧
      wncStep { s .threading 50 none with wnc := { (s .threading 50 none).wnc with start := .cutOut 6 5 } } = none ∧
      -- the closing record 7 has no cut start: record 6 is taken when D has passed it
      closed.closingOf { someRoll with firstIndex := 5 } = some (someRecord 7 .downstream) ∧
      wncStep closed = none ∧ wncStep after_ = takeNext after_ ∧ takeNext after_ ≠ none := by decide

/-- R147: a draining job whose cut-out is never completed ends when D has passed its last record. -/
theorem witness_cut_out_never_made :
    let s := fun d => { draining (lastOfJob .threading d) with
      wnc := { (lastOfJob .threading d).wnc with start := .cutOut 6 1 } }
    takeNext (s 21301) = none ∧ wncStep (s 21300) = none ∧
      ((wncStep (s 21301)).map fun t => (t.wnc.state, t.rst.records)) = some (.idle, []) := by decide

/-- R133, R140: a start cut takes the record before its start record to waste, and a roll's start takes the held. -/
theorem witness_waste_before_and_held :
    let s := windingAt .threading 151 (some ⟨.start, some 7, 200, 150⟩)
    let free := { s with wnc := { s.wnc with slots := emptySlots, winding := none } }
    let t := (wncStep free).getD base
    let held := takeHeld 0 [6, 7] s
    (wasteBefore 7 s.rst.records s).rst.records.map (·.wnd) = [some ⟨.waste, 100⟩, none] ∧
      t.rst.records.map (·.index) = [7] ∧ t.wnc.state = .winding ∧
      held.rst.records.map (fun r => r.wnd.map (·.dest)) = [some (.roll 0 1 1), some (.roll 0 1 2)] ∧
      (held.wnc.slots[(0 : Fin 12)].roll?.map (·.count)) = some 2 := by decide

/-- R140: the cut-out counts again from a later SPLICE. -/
theorem witness_cut_out_counts_again :
    let r := fun (i : Nat) (x : Option Int) => { someRecord i .created with splice := x }
    cutOutTarget 1 1 [r 6 (some 0), r 7 none, r 8 none] = some 8 ∧
      cutOutTarget 1 1 [r 6 (some 0), r 7 (some 0), r 8 none, r 9 none] = some 9 ∧
      cutOutTarget 1 1 [r 6 (some 0), r 7 none] = none := by decide

/-- R98, R103: the old pairing key and the unseen record both missing, with L8 in FILL at one miss below its coast limit
of 3, a record 5 that is CLOSED, and record 4 before it no longer in the store. -/
theorem witness_both_fiducials_missing :
    let l := { base.rlu.loops[(7 : Fin 8)] with state := .fill, missRun := 1 }
    let s := withLoop 7 l (withRecords [{ transferredAt 5 21200 none with stage := .closed }] (inJob .armed))
    let s := { s with emc := { s.emc with
      pairKey := some ⟨4, 0, true, some true, false, false⟩, lastDown := some ⟨4, 0, true, true⟩ } }
    let r := { transferredAt 5 21200 none with emb := some { Emb.blank with nip := some true } }
    let t := makeDownstream r false 40400 s
    s.act.emboss.ratio = 1 ∧ t.emc.counts.missing = 2 ∧ t.rlu.loops[(7 : Fin 8)].counts.misses = 2 ∧
      t.rst.late.emb = 1 ∧ t.rst.orphans = 1 ∧ t.rst.records = s.rst.records ∧ t.tou.trims = s.tou.trims ∧
      t.link.notices.map (·.body) = [.lateWrite .emb 5 0, .loop 7 .fill .coast .misses 5] := by decide

/-- Two records due at one count of D, to be made unseen (R97) and to be stamped (R110). -/
def twoDue : State :=
  { finding with
    epu := { finding.epu with d := { finding.epu.d with pos := 445922 } }
    rtk := { finding.rtk with last := some ⟨7, 0, none, false⟩ } }

theorem witness_two_records_due :
    StoreOrdered twoDue ∧ twoDue.job.state = .armed ∧
      (unseenSweep twoDue).rst.records.map (·.stage) = [.downstream, .downstream, .downstream, .transferred] ∧
      (stampSweep twoDue).emc.stampFrom = 8 ∧
      (stampSweep twoDue).rst.records.map (fun r => r.emb.bind (·.nip)) = List.replicate 4 (some false) := by
  refine ⟨⟨by decide, ⟨by decide, by decide, by decide, trivial⟩, fun r h => ⟨_, rfl, ?_⟩⟩, by decide⟩
  revert r; decide

/-- R119: two triggers passed at one count: the second one's cycle overruns the first one's, whose poll stays. -/
theorem witness_two_triggers_due :
    let s := { base with
      epu := { base.epu with d := { base.epu.d with pos := 10 } }
      shu := { base.shu with queue := [⟨4, 8⟩, ⟨6, 9⟩] } }
    let t := shadeSweep s
    t.shu.queue = [] ∧ t.shu.cycle = some ⟨6, 1, [1, 2, 3], some 0, []⟩ ∧ t.shu.sending = [⟨0, 0⟩, ⟨0, 1⟩] ∧
      (t.shu.counts.triggers, t.shu.counts.overruns, t.shu.counts.misses) = (2, 1, 1) := by decide

end Sys2Proof.Tests
end

