-- ==== Sys2Proof/Proofs/Readers.lean ====
section
/-! PROOFS. The position counters and the Mark Readers (R2, R3, R7 to R18): what a count and an edge do to each
of them, case by case, and from it the statements about an edge with no group open and about a count of an
encoder. -/

open Sys2Proof Sys2Proof.Machine

namespace Sys2Proof.Machine

/-! ### Windows of width, and what a reader captures (R7 to R9) -/

theorem Window.holds_iff (w : Window) (width : Int) :
    w.holds width = true ↔ (w.lo : Int) ≤ width ∧ width ≤ w.hi := by
  simp [Window.holds, inRangeInt]

theorem lineRuns_and_fresh_iff_captures (s : State) (c : Counter) :
    (s.lineRuns && c.fresh) = true ↔ captures s c := by
  simp [State.lineRuns, captures]

/-! ### A key candidate offered (R24) -/

theorem offerKey_search {c : HalfPos} {s : State} (h : s.rtk.state = .search) : offerKey c s = some s := by
  simp [offerKey, h]

theorem offerKey_idle {c : HalfPos} {s : State} (h : s.rtk.state = .idle) : offerKey c s = none := by
  simp [offerKey, h]

theorem KeyWindow.holds_iff (w : KeyWindow) (c : HalfPos) :
    w.holds c = true ↔ ((halfDiff c w.expected).natAbs : Int) ≤ 2 * w.halfWidth := by
  simp [KeyWindow.holds]

/-- An unclaimed window that holds the centre allows the key and is claimed by it (R24). -/
theorem offerKey_claims {c : HalfPos} {s : State} {w : KeyWindow}
    (hs : s.rtk.state = .locked ∨ s.rtk.state = .coasting) (hw : s.rtk.window = some w)
    (hc : w.claimed = false) (hin : w.holds c = true) :
    offerKey c s = some (s.setRtk { s.rtk with window := some { w with claimed := true } }) := by
  rcases hs with hs | hs <;> simp [offerKey, hs, hw, hc, hin]

/-- A window that is claimed, or does not hold the centre, refuses the key (R24). -/
theorem offerKey_refuses {c : HalfPos} {s : State} {w : KeyWindow}
    (hs : s.rtk.state = .locked ∨ s.rtk.state = .coasting) (hw : s.rtk.window = some w)
    (hno : w.claimed = true ∨ ¬ w.holds c = true) : offerKey c s = none := by
  rcases hs with hs | hs <;> rcases hno with hno | hno <;> simp [offerKey, hs, hw, hno]

/-! ### A pair on the print reader with no group open (R10) -/

theorem keyCandidate_stray {m : Mark} {s : State} (h : ¬ s.act.reader.key.holds m.width = true) :
    keyCandidate m s = setPrint s.mrd.print.stray s := by
  simp [keyCandidate, h]

theorem keyCandidate_refused {m : Mark} {s : State} (h : s.act.reader.key.holds m.width = true)
    (ho : offerKey m.centre s = none) : keyCandidate m s = setPrint s.mrd.print.unclaim s := by
  simp [keyCandidate, h, ho]

theorem keyCandidate_allowed {m : Mark} {s t : State} (h : s.act.reader.key.holds m.width = true)
    (ho : offerKey m.centre s = some t) :
    keyCandidate m s = t.setMrd { t.mrd with group := some ⟨m, noMarks, []⟩ } := by
  simp [keyCandidate, h, ho]

theorem printPair_noGroup {m : Mark} {s : State} (h : s.mrd.group = none) : printPair m s = keyCandidate m s := by
  simp [printPair, h]

/-! ### A pair on the emboss reader with no group open (R16, R17) -/

theorem embossPair_key {m : Mark} {s : State} (hg : s.mrd.embossGroup = none)
    (h : s.act.reader.key.holds m.width = true) :
    embossPair m s = s.setMrd { s.mrd with embossGroup := some ⟨m, []⟩ } := by
  simp [embossPair, hg, h]

theorem embossPair_fiducial {m : Mark} {s : State} (hg : s.mrd.embossGroup = none)
    (hk : ¬ s.act.reader.key.holds m.width = true) (h : s.act.reader.fiducial.holds m.width = true) :
    embossPair m s = takeFiducialMark m s := by
  simp [embossPair, hg, hk, h]

theorem embossPair_stray {m : Mark} {s : State} (hg : s.mrd.embossGroup = none)
    (hk : ¬ s.act.reader.key.holds m.width = true) (h : ¬ s.act.reader.fiducial.holds m.width = true) :
    embossPair m s = setEmboss s.mrd.emboss.stray s := by
  simp [embossPair, hg, hk, h]

/-! ### An edge of a scanner (R7, R8) -/

/-- A reader after an edge going light that completes a pair (R8). -/
def Reader.paired (r : Reader) : Reader := { r with scannerDark := false, level := false, lead := none }

theorem Reader.scan_lightGoing (r : Reader) : r.scan .lightGoing = { r with scannerDark := false } := rfl

theorem Reader.edge_lightGoing_noLead {r : Reader} (p : Pos) (h : r.lead = none) :
    (r.scan .lightGoing).edge .lightGoing p = ({ r with scannerDark := false, level := false }, none) := by
  simp [Reader.edge, Reader.scan_lightGoing, h]

theorem Reader.edge_lightGoing_lead {r : Reader} {l : Pos} (p : Pos) (h : r.lead = some l) :
    (r.scan .lightGoing).edge .lightGoing p = (r.paired, some ⟨l, p⟩) := by
  simp [Reader.edge, Reader.scan_lightGoing, Reader.paired, h]

/-- An edge that the print reader captures: the reader takes it, and places the pair it completes (R8). -/
theorem printEdge_captured {s : State} (e : Edge) (h : captures s s.epu.u) :
    printEdge e s = match ((s.mrd.print.scan e).edge e s.epu.u.pos).2 with
      | none => setPrint ((s.mrd.print.scan e).edge e s.epu.u.pos).1 s
      | some m => printPair m (setPrint ((s.mrd.print.scan e).edge e s.epu.u.pos).1 s) := by
  rw [printEdge, if_pos ((lineRuns_and_fresh_iff_captures _ _).mpr h)]; rfl

theorem printEdge_notCaptured {s : State} (e : Edge) (h : ¬ captures s s.epu.u) :
    printEdge e s = setPrint (s.mrd.print.scan e) s :=
  if_neg (mt (lineRuns_and_fresh_iff_captures _ _).mp h)

/-- An edge that the emboss reader captures: the reader takes it, and places the pair it completes (R8, R16). -/
theorem embossEdge_captured {s : State} (e : Edge) (h : captures s s.epu.d) :
    embossEdge e s = match ((s.mrd.emboss.scan e).edge e s.epu.d.pos).2 with
      | none => setEmboss ((s.mrd.emboss.scan e).edge e s.epu.d.pos).1 s
      | some m => embossPair m (setEmboss ((s.mrd.emboss.scan e).edge e s.epu.d.pos).1 s) := by
  rw [embossEdge, if_pos ((lineRuns_and_fresh_iff_captures _ _).mpr h)]; rfl

theorem embossEdge_notCaptured {s : State} (e : Edge) (h : ¬ captures s s.epu.d) :
    embossEdge e s = setEmboss (s.mrd.emboss.scan e) s :=
  if_neg (mt (lineRuns_and_fresh_iff_captures _ _).mp h)

theorem printEdge_light_noLead {s : State} (h : captures s s.epu.u) (hl : s.mrd.print.lead = none) :
    printEdge .lightGoing s = setPrint { s.mrd.print with scannerDark := false, level := false } s := by
  rw [printEdge_captured _ h, Reader.edge_lightGoing_noLead _ hl]

theorem printEdge_light_pair {s : State} {lead : Pos} (h : captures s s.epu.u) (hl : s.mrd.print.lead = some lead) :
    printEdge .lightGoing s = printPair ⟨lead, s.epu.u.pos⟩ (setPrint s.mrd.print.paired s) := by
  rw [printEdge_captured _ h, Reader.edge_lightGoing_lead _ hl]

theorem embossEdge_light_noLead {s : State} (h : captures s s.epu.d) (hl : s.mrd.emboss.lead = none) :
    embossEdge .lightGoing s = setEmboss { s.mrd.emboss with scannerDark := false, level := false } s := by
  rw [embossEdge_captured _ h, Reader.edge_lightGoing_noLead _ hl]

theorem embossEdge_light_pair {s : State} {lead : Pos} (h : captures s s.epu.d) (hl : s.mrd.emboss.lead = some lead) :
    embossEdge .lightGoing s = embossPair ⟨lead, s.epu.d.pos⟩ (setEmboss s.mrd.emboss.paired s) := by
  rw [embossEdge_captured _ h, Reader.edge_lightGoing_lead _ hl]

theorem exec_scannerEdge_print (e : Edge) (s : State) :
    exec (.scannerEdge .print e) s = .next (pump (printEdge e s)) := rfl

theorem exec_scannerEdge_emboss (e : Edge) (s : State) :
    exec (.scannerEdge .emboss e) s = .next (pump (embossEdge e s)) := rfl

/-! ### A pair completed with no group open (R10, R16) -/

section
variable {s : State} {lead : Pos} (hu : captures s s.epu.u) (hl : s.mrd.print.lead = some lead)
  (hg : s.mrd.group = none)
include hu hl hg

theorem printEdge_light_noGroup : printEdge .lightGoing s =
    keyCandidate ⟨lead, s.epu.u.pos⟩ (setPrint s.mrd.print.paired s) :=
  (printEdge_light_pair hu hl).trans (printPair_noGroup hg)

theorem printEdge_stray (hk : ¬ s.act.reader.key.holds (posDiff s.epu.u.pos lead) = true) :
    printEdge .lightGoing s = setPrint s.mrd.print.paired.stray s :=
  (printEdge_light_noGroup hu hl hg).trans (keyCandidate_stray hk)

theorem printEdge_refused (hk : s.act.reader.key.holds (posDiff s.epu.u.pos lead) = true)
    (ho : offerKey (centreSum lead s.epu.u.pos) (setPrint s.mrd.print.paired s) = none) :
    printEdge .lightGoing s = setPrint s.mrd.print.paired.unclaim s :=
  (printEdge_light_noGroup hu hl hg).trans (keyCandidate_refused hk ho)

theorem printEdge_allowed {t : State} (hk : s.act.reader.key.holds (posDiff s.epu.u.pos lead) = true)
    (ho : offerKey (centreSum lead s.epu.u.pos) (setPrint s.mrd.print.paired s) = some t) :
    printEdge .lightGoing s = t.setMrd { t.mrd with group := some ⟨⟨lead, s.epu.u.pos⟩, noMarks, []⟩ } :=
  (printEdge_light_noGroup hu hl hg).trans (keyCandidate_allowed hk ho)

end

section
variable {s : State} {lead : Pos} (hd : captures s s.epu.d) (hl : s.mrd.emboss.lead = some lead)
  (hg : s.mrd.embossGroup = none)
include hd hl hg

theorem embossEdge_opens (hk : s.act.reader.key.holds (posDiff s.epu.d.pos lead) = true) :
    embossEdge .lightGoing s = s.setMrd { s.mrd with
      emboss := s.mrd.emboss.paired, embossGroup := some ⟨⟨lead, s.epu.d.pos⟩, []⟩ } :=
  (embossEdge_light_pair hd hl).trans (embossPair_key hg hk)

theorem embossEdge_fiducial (hk : ¬ s.act.reader.key.holds (posDiff s.epu.d.pos lead) = true)
    (hf : s.act.reader.fiducial.holds (posDiff s.epu.d.pos lead) = true) :
    embossEdge .lightGoing s = takeFiducial (centreSum lead s.epu.d.pos) (setEmboss s.mrd.emboss.paired s) :=
  (embossEdge_light_pair hd hl).trans (embossPair_fiducial hg hk hf)

theorem embossEdge_stray (hk : ¬ s.act.reader.key.holds (posDiff s.epu.d.pos lead) = true)
    (hf : ¬ s.act.reader.fiducial.holds (posDiff s.epu.d.pos lead) = true) :
    embossEdge .lightGoing s = setEmboss s.mrd.emboss.paired.stray s :=
  (embossEdge_light_pair hd hl).trans (embossPair_stray hg hk hf)

end

end Sys2Proof.Machine

/-- Settles O19: each class of edge by the equation of the reader for it. -/
theorem edgesOutsideAGroup : Obligations.EdgesOutsideAGroup := by
  unfold Obligations.EdgesOutsideAGroup
  simp only [exec_scannerEdge_print, exec_scannerEdge_emboss, ← Window.holds_iff,
    ← KeyWindow.holds_iff]
  refine ⟨fun s => ⟨fun h => ?dark, fun h => ?darkE, fun h hl => ?noLead, fun h hl => ?noLeadE,
    fun e h => ?level, fun e h => ?levelE⟩, fun s lead h hl hg => ?print, fun s lead h hl hg => ?emboss⟩
  case dark => rw [printEdge_captured _ h]; rfl
  case darkE => rw [embossEdge_captured _ h]; rfl
  case noLead => rw [printEdge_light_noLead h hl]; rfl
  case noLeadE => rw [embossEdge_light_noLead h hl]; rfl
  case level => rw [printEdge_notCaptured e h]; rfl
  case levelE => rw [embossEdge_notCaptured e h]; rfl
  case print =>
    refine ⟨fun hk => ?stray, fun hk hs => ?search, fun hk hs => ?idle, fun w hk hs hw =>
      ⟨fun hc hin => ?claims, fun hno => ?refused⟩⟩
    case stray => rw [printEdge_stray h hl hg hk]; rfl
    case search => rw [printEdge_allowed h hl hg hk (offerKey_search hs)]; rfl
    case idle => rw [printEdge_refused h hl hg hk (offerKey_idle hs)]; rfl
    case claims => rw [printEdge_allowed h hl hg hk (offerKey_claims hs hw hc hin)]; rfl
    case refused => rw [printEdge_refused h hl hg hk (offerKey_refuses hs hw hno)]; rfl
  case emboss =>
    refine ⟨fun hk => ?opens, fun hk hf => ?fiducial, fun hk hf => ?stray⟩
    case opens => rw [embossEdge_opens h hl hg hk]; rfl
    case fiducial => rw [embossEdge_fiducial h hl hg hk hf]; rfl
    case stray => rw [embossEdge_stray h hl hg hk hf]; rfl
end

