-- ==== Sys2Proof/Proofs/EncoderCount.lean ====
section
/-! PROOFS. A count of an encoder (R2): the counter and its reader, the cells and the completion of an open
group, and the test that ends a DRAINING job. -/

open Sys2Proof Sys2Proof.Machine

namespace Sys2Proof.Machine

/-! ### Counters and readers at a count (R2, R3, R8) -/

/-- R2 and R3 leave a count one outcome. -/
theorem Counted.eq_count {dir : Direction} {c c' : Counter} (h : Counted dir c c') : c' = c.count dir := by
  obtain ⟨pos, highWater, fresh, speed, measuredAt⟩ := c'
  obtain ⟨rfl, rfl, h⟩ := h
  cases dir with
  | backward => obtain ⟨rfl, rfl, rfl⟩ := h; rfl
  | forward =>
    obtain ⟨rfl, h⟩ := h
    by_cases hp : 0 < posDiff (c.pos + 1) c.highWater
    · rw [if_pos hp] at h; obtain ⟨rfl, rfl⟩ := h
      exact (if_pos (decide_eq_true hp)).symm
    · rw [if_neg hp] at h; obtain ⟨rfl, rfl⟩ := h
      exact (if_neg (mt of_decide_eq_true hp)).symm

theorem Reader.onCount_backward (r : Reader) (wasFresh isFresh : Bool) :
    r.onCount .backward wasFresh isFresh = { r with
      lead := none
      counts := { r.counts with
        droppedEdges := if r.lead = none then r.counts.droppedEdges
          else min (r.counts.droppedEdges + 1) 65535 } } := by
  obtain ⟨scannerDark, level, lead, counts⟩ := r
  cases lead <;> rfl

theorem Reader.onCount_forward (r : Reader) (wasFresh isFresh : Bool) :
    r.onCount .forward wasFresh isFresh =
      if isFresh = true ∧ wasFresh = false then { r with level := r.scannerDark } else r := by
  simp [Reader.onCount]

/-! ### The end of a print group (R11) -/

theorem ReaderSettings.lastCell_eq (cfg : ReaderSettings) :
    cfg.lastCell = 2 * (cfg.codeOffset : Int) + 46 * cfg.pitch := by
  simp [ReaderSettings.lastCell, ReaderSettings.cellAt]

theorem ReaderSettings.mem_places (cfg : ReaderSettings) (i : Fin 7) :
    i ∈ cfg.places ↔ i.val + 2 ≤ cfg.stations := by
  have all : ∀ i : Fin 7, i ∈ stationPlaces := by decide
  simp [ReaderSettings.places, ReaderSettings.hasStation, all]

/-- A running maximum is the greatest of its start and the values met. -/
theorem foldl_max_spec {α : Type} (f : α → Int) (xs : List α) (a : Int) :
    let m := xs.foldl (fun m x => max m (f x)) a
    a ≤ m ∧ (∀ x ∈ xs, f x ≤ m) ∧ (m = a ∨ ∃ x ∈ xs, m = f x) := by
  induction xs generalizing a with
  | nil => simp
  | cons x xs ih =>
    obtain ⟨start, met, attained⟩ := ih (max a (f x))
    refine ⟨(le_max_left _ _).trans start, List.forall_mem_cons.mpr ⟨(le_max_right _ _).trans start, met⟩, ?_⟩
    rcases attained with attained | ⟨y, hy, attained⟩
    · rcases max_choice a (f x) with h | h
      · exact .inl (attained.trans h)
      · exact .inr ⟨x, List.mem_cons_self, attained.trans h⟩
    · exact .inr ⟨y, List.mem_cons_of_mem _ hy, attained⟩

/-- A print group ends at the latest of its last cell and the ends of its stations' windows (R11). -/
theorem ReaderSettings.groupEnd_spec (cfg : ReaderSettings) :
    cfg.lastCell ≤ cfg.groupEnd ∧ (∀ i : Fin 7, i.val + 2 ≤ cfg.stations → cfg.windowEnd i ≤ cfg.groupEnd) ∧
      (cfg.groupEnd = cfg.lastCell ∨ ∃ i : Fin 7, i.val + 2 ≤ cfg.stations ∧ cfg.groupEnd = cfg.windowEnd i) := by
  simpa only [ReaderSettings.groupEnd, cfg.mem_places] using foldl_max_spec cfg.windowEnd cfg.places cfg.lastCell

/-! ### Code cells and words (R13 to R16) -/

/-- Sampling stops at the twenty-fourth cell, and at a cell not reached. -/
theorem Sampled.stop {cfg : ReaderSettings} {key : HalfPos} {p : Pos} {cells : List Bool} (level : Bool)
    (h : ¬ (cells.length < cellCount ∧ reachedHalf p (halfShift key (cfg.cellAt cells.length)) = true)) :
    Sampled cfg key p level cells cells := by
  refine ⟨0, by simp, fun k _ _ => by omega, ?_⟩
  by_cases hc : 24 ≤ cells.length
  · exact .inl hc
  · exact .inr fun hr => h ⟨Nat.lt_of_not_le hc, decide_eq_true hr⟩

/-- A cell reached takes the level, and the cells after it follow. -/
theorem Sampled.next {cfg : ReaderSettings} {key : HalfPos} {p : Pos} {level : Bool} {old new : List Bool}
    (hc : old.length < cellCount) (hr : reachedHalf p (halfShift key (cfg.cellAt old.length)) = true)
    (h : Sampled cfg key p level (old ++ [level]) new) : Sampled cfg key p level old new := by
  obtain ⟨m, rfl, reached, last⟩ := h
  have length : (old ++ [level]).length + m = old.length + (m + 1) := by simp; omega
  rw [length] at reached last
  refine ⟨m + 1, by simp [List.replicate_succ], fun k hk hkm => ?_, last⟩
  rcases hk.eq_or_lt with rfl | hk
  · exact ⟨hc, of_decide_eq_true hr⟩
  · exact reached k (by simpa using hk) hkm

/-- With fuel for the cells still missing, every cell reached is sampled (R13). -/
theorem sampleCells_sampled (cfg : ReaderSettings) (key : HalfPos) (p : Pos) (level : Bool) (fuel : Nat)
    (cells : List Bool) (enough : cellCount ≤ cells.length + fuel) :
    Sampled cfg key p level cells (sampleCells cfg key p level fuel cells) := by
  induction fuel generalizing cells with
  | zero => exact .stop level fun h => absurd h.1 (by omega)
  | succ fuel ih =>
    unfold sampleCells
    split
    next h => exact .next h.1 h.2 (ih _ (by simp; omega))
    next h => exact .stop level h

theorem wordsWith_eq_countP (cells : List Bool) (st : WordStatus) : wordsWith cells st =
    [kindWord cells, designWord cells, counterWord cells].countP fun w => w.status == st :=
  List.countP_eq_length_filter.symm

theorem Reader.countWords_eq (r : Reader) (cells : List Bool) :
    let words := [kindWord cells, designWord cells, counterWord cells]
    r.countWords cells = { r with counts := { r.counts with
      corrected := min (r.counts.corrected + words.countP fun w => w.status == .corrected) 65535
      uncorrectable := min (r.counts.uncorrectable + words.countP fun w => w.status == .uncorrectable) 65535 } } := by
  simp only [← wordsWith_eq_countP]; rfl

/-! ### The open groups at a count (R13, R14, R16, R17) -/

/-- The code cells of a print group after a count of U. -/
def State.printCells (s : State) (g : PrintGroup) : List Bool :=
  sampleCells s.act.reader g.key.centre s.u s.mrd.print.level cellCount g.cells

/-- The code cells of an emboss group after a count of D. -/
def State.embossCells (s : State) (g : EmbossGroup) : List Bool :=
  sampleCells s.act.reader g.key.centre s.d s.mrd.emboss.level cellCount g.cells

theorem State.printCells_sampled (s : State) (g : PrintGroup) :
    Sampled s.act.reader g.key.centre s.u s.mrd.print.level g.cells (s.printCells g) :=
  sampleCells_sampled _ _ _ _ _ _ (Nat.le_add_left _ _)

theorem State.embossCells_sampled (s : State) (g : EmbossGroup) :
    Sampled s.act.reader g.key.centre s.d s.mrd.emboss.level g.cells (s.embossCells g) :=
  sampleCells_sampled _ _ _ _ _ _ (Nat.le_add_left _ _)

theorem printGroupSweep_idle {s : State} (h : s.mrd.group = none ∨ s.epu.u.fresh = false) :
    printGroupSweep s = s := by
  unfold printGroupSweep
  rcases h with h | h
  · simp [h]
  · cases s.mrd.group <;> simp [h]

theorem printGroupSweep_open {s : State} {g : PrintGroup} (hg : s.mrd.group = some g) (hf : s.epu.u.fresh = true)
    (h : ¬ passedHalf s.u (halfShift g.key.centre s.act.reader.groupEnd) = true) :
    printGroupSweep s = s.setMrd { s.mrd with group := some { g with cells := s.printCells g } } := by
  simp [printGroupSweep, hg, hf, h, State.printCells]

theorem printGroupSweep_complete {s : State} {g : PrintGroup} (hg : s.mrd.group = some g)
    (hf : s.epu.u.fresh = true) (h : passedHalf s.u (halfShift g.key.centre s.act.reader.groupEnd) = true) :
    printGroupSweep s = takePrintGroup { g with cells := s.printCells g } (s.setMrd { s.mrd with
      group := none, print := s.mrd.print.countWords (s.printCells g) }) := by
  simp [printGroupSweep, hg, hf, h, State.printCells]

theorem embossGroupSweep_idle {s : State} (h : s.mrd.embossGroup = none ∨ s.epu.d.fresh = false) :
    embossGroupSweep s = s := by
  unfold embossGroupSweep
  rcases h with h | h
  · simp [h]
  · cases s.mrd.embossGroup <;> simp [h]

theorem embossGroupSweep_open {s : State} {g : EmbossGroup} (hg : s.mrd.embossGroup = some g)
    (hf : s.epu.d.fresh = true) (h : ¬ passedHalf s.d (halfShift g.key.centre s.act.reader.lastCell) = true) :
    embossGroupSweep s = s.setMrd { s.mrd with embossGroup := some { g with cells := s.embossCells g } } := by
  simp [embossGroupSweep, hg, hf, h, State.embossCells]

theorem embossGroupSweep_complete {s : State} {g : EmbossGroup} (hg : s.mrd.embossGroup = some g)
    (hf : s.epu.d.fresh = true) (h : passedHalf s.d (halfShift g.key.centre s.act.reader.lastCell) = true) :
    embossGroupSweep s = s.mrd.held.foldl (fun x m => takeFiducialMark m x)
      (takeEmbossGroup { g with cells := s.embossCells g } (s.setMrd { s.mrd with
        embossGroup := none, held := [], emboss := s.mrd.emboss.countWords (s.embossCells g) })) := by
  simp [embossGroupSweep, hg, hf, h, State.embossCells]

/-! ### The end of draining (R147, R177) -/

theorem mem_slotList (i : Fin 12) : i ∈ slotList := by revert i; decide

theorem Slot.not_busy_iff (x : Slot) : x.busy = false ↔ ∀ p r, x = .used p r → p = .labelled := by
  rcases x with _ | ⟨_ | _ | _ | _, r⟩ <;> simp [Slot.busy]

theorem State.drained_iff (s : State) : s.drained = true ↔
    s.wnc.state = .idle ∧ ∀ (i : Fin 12) p r, s.wnc.slots[i] = .used p r → p = .labelled := by
  simp [State.drained, mem_slotList, Slot.not_busy_iff]

theorem closeBatch_job (e : Fin 8) (s : State) : closeBatch e .job s = match s.gru.table[e] with
    | none => s
    | some b => if b.closed = none then
        raise (.batchClosed b.number e .job b.rolls b.lastRoll) { s with gru := { s.gru with
          table := s.gru.table.set e (some { b with closed := some (s.gru.use + 1, .job) })
          use := s.gru.use + 1 } }
      else s := by
  unfold closeBatch
  rcases s.gru.table[e] with _ | b
  · rfl
  · simp only [Batch.isOpen, Option.isNone_iff_eq_none]; rfl

theorem closeJobBatches_eq_batchesEnded (s : State) : closeJobBatches s = batchesEnded s := by
  simp only [closeJobBatches, closeBatch_job]; rfl

theorem liftNip_job (s : State) : liftNip .job s =
    if s.emc.nip = .engaging ∨ s.emc.nip = .engaged then
      raise (.nip s.emc.nip .lifting .job s.epu.d.pos) { s with emc := { s.emc with
        nip := .lifting, lastLift := .job, autoPending := false
        timer := s.emc.timer.start s.act.emboss.liftTime } }
    else { s with emc := { s.emc with autoPending := false } } := by
  rcases h : s.emc.nip <;> simp [liftNip, Emc.noteLift, h, NipState.valve, setNip] <;> rfl

theorem setJobState_ready_drained {s : State} (h : s.job.state = .draining) : setJobState .ready .drained s =
    raise (.job .draining .ready .drained) { s with job := { s.job with state := .ready } } := by
  simp [setJobState, h]; rfl

theorem endDraining_eq_jobDrained {s : State} (h : s.job.state = .draining) : endDraining s = jobDrained s := by
  have job : (closeJobBatches (liftNip .job (s.setMrd s.mrd.stop))).job = s.job :=
    (job_of_apart (by simp)).trans (State.setMrd_job s s.mrd.stop)
  rw [endDraining, setJobState_ready_drained (by rw [job, h]), jobDrained, job, h,
    closeJobBatches_eq_batchesEnded, liftNip_job]
  rfl

theorem checkDrained_drained {s : State} (hj : s.job.state = .draining) (h : s.drained = true) :
    checkDrained s = jobDrained s :=
  (if_pos ⟨hj, h⟩).trans (endDraining_eq_jobDrained hj)

theorem checkDrained_not {s : State} (h : ¬ (s.job.state = .draining ∧ s.drained = true)) : checkDrained s = s :=
  if_neg h

/-! ### The meanings of a count (R2) -/

theorem exec_encoderCount_print (dir : Direction) (s : State) : exec (.encoderCount .print dir) s =
    .next (pump (nameStart (spliceSweep (transferSweep (windowSweep (printGroupSweep (countU dir s))))))) := rfl

theorem exec_encoderCount_wind (dir : Direction) (s : State) : exec (.encoderCount .wind dir) s =
    .next (pump (checkDrained (wncSettle (shadeSweep (stampSweep (watchSweep (unseenSweep
      (embossGroupSweep (countD dir s))))))))) := rfl

end Sys2Proof.Machine

/-- Settles O16: a count leaves the counter and the reader as `w` has them, and the group sweep takes each case of
the open group from there. -/
theorem encoderCountSamplesCells : Obligations.EncoderCountSamplesCells := by
  unfold Obligations.EncoderCountSamplesCells
  refine ⟨fun cfg => ?groupEnd, fun s => ?drained, ?counts⟩
  case groupEnd =>
    simp only [← cfg.lastCell_eq, true_and]
    exact cfg.groupEnd_spec
  case drained =>
    simp only [← s.drained_iff]
    exact ⟨fun ⟨hj, h⟩ => checkDrained_drained hj h, checkDrained_not⟩
  case counts =>
    intro dir c s moved counted
    have reader (r : Reader) (wasFresh : Bool) : moved r wasFresh = r.onCount dir wasFresh c.fresh := by
      cases dir with
      | backward => exact (Reader.onCount_backward r wasFresh c.fresh).symm
      | forward => exact (Reader.onCount_forward r wasFresh c.fresh).symm
    have words (r : Reader) (cells : List Bool) : counted r cells = r.countWords cells :=
      (r.countWords_eq cells).symm
    refine ⟨?print, ?emboss⟩
    case print =>
      intro hc r w rest out
      have count : countU dir s = w := by
        simp only [w, r, reader, hc.eq_count]; rfl
      have sweep : out = rest (printGroupSweep w) := by
        rw [← count]; exact exec_encoderCount_print dir s
      rw [sweep]
      refine ⟨fun h => by rw [printGroupSweep_idle h], fun g hg hf =>
        ⟨w.printCells g, w.printCells_sampled g, fun h => ?_, fun h => ?_⟩⟩
      · rw [printGroupSweep_open (s := w) hg hf (mt of_decide_eq_true h)]; rfl
      · rw [printGroupSweep_complete (s := w) hg hf (decide_eq_true h), words]; rfl
    case emboss =>
      intro hc r w rest out
      have count : countD dir s = w := by
        simp only [w, r, reader, hc.eq_count]; rfl
      have sweep : out = rest (embossGroupSweep w) := by
        rw [← count]; exact exec_encoderCount_wind dir s
      rw [sweep]
      refine ⟨fun h => by rw [embossGroupSweep_idle h], fun g hg hf =>
        ⟨w.embossCells g, w.embossCells_sampled g, fun h => ?_, fun h => ?_⟩⟩
      · rw [embossGroupSweep_open (s := w) hg hf (mt of_decide_eq_true h)]; rfl
      · rw [embossGroupSweep_complete (s := w) hg hf (decide_eq_true h), words]; rfl
end

section
/-! PROOFS. REMARK (R53): which records the amend window opens, what the order decides for each, and what an
accepted one sets. -/

open Sys2Proof Sys2Proof.Machine

namespace Sys2Proof.Machine

/-! ### The amend window (R53, R54) -/

theorem Rst.mayAmend_iff (t : Rst) (number : Nat) :
    t.mayAmend number = true ↔ ∃ first last, t.amend = some (first, last) ∧ first ≤ number ∧ number ≤ last := by
  unfold Rst.mayAmend
  rcases t.amend with _ | ⟨first, last⟩ <;> simp

theorem State.amendable_iff (s : State) (r : Record) :
    s.amendable r = true ↔ ∃ slot number position cutStart roll first last,
      r.wnd = some ⟨.roll slot number position, cutStart⟩ ∧ s.wnc.slots[slot] = .used .cut roll ∧
      roll.number = number ∧ s.rst.amend = some (first, last) ∧ first ≤ number ∧ number ≤ last := by
  constructor
  · intro h
    unfold State.amendable at h
    split at h
    next slot number position cutStart hw =>
      split at h
      next roll hs =>
        obtain ⟨hn, hm⟩ := Bool.and_eq_true_iff.mp h
        obtain ⟨first, last, window⟩ := (s.rst.mayAmend_iff number).mp hm
        exact ⟨slot, number, position, cutStart, roll, first, last, hw, hs, beq_iff_eq.mp hn, window⟩
      next => cases h
    next => cases h
  · rintro ⟨slot, number, position, cutStart, roll, first, last, hw, hs, hn, window⟩
    have hm : s.rst.mayAmend number = true := (s.rst.mayAmend_iff number).mpr ⟨first, last, window⟩
    simp [State.amendable, hw, hs, hn, hm]

/-! ### What REMARK decides (R53) -/

section
variable {tag value : Byte} {index : BitVec 32} {s : State}

theorem exec_remark (h : Takeable s) :
    exec (.remark tag index value) s = .next (pump (decideRemark tag index value s)) := by
  obtain ⟨answers, orders⟩ := h
  rw [exec_order rfl, submit_taken answers orders]
  rfl

theorem decideRemark_value (hv : 15 < value.toNat) : decideRemark tag index value s = refuse 19 tag .value s :=
  if_pos hv

theorem decideRemark_notFound (hv : value.toNat ≤ 15) (hf : s.rst.find index.toNat = none) :
    decideRemark tag index value s = refuse 19 tag .notFound s := by
  simp [decideRemark, Nat.not_lt.mpr hv, hf]

variable {r : Record} (hv : value.toNat ≤ 15) (hf : s.rst.find index.toNat = some r)
include hv hf

theorem decideRemark_accepted (ho : r.stage ≠ .closed ∨ s.amendable r = true) :
    decideRemark tag index value s =
      accept 19 tag [] (s.setRst (s.rst.update index.toNat fun x => { x with remark := value.toNat })) := by
  simp [decideRemark, Nat.not_lt.mpr hv, hf, ho]

theorem decideRemark_protected (hc : r.stage = .closed) (ha : ¬ s.amendable r = true) :
    decideRemark tag index value s = refuse 19 tag .protected_ s := by
  simp [decideRemark, Nat.not_lt.mpr hv, hf, hc, ha]

end

end Sys2Proof.Machine

/-- Settles O27: each class of record by the equation of the order's decision for it. -/
theorem remarkIsDecided : Obligations.RemarkIsDecided := by
  unfold Obligations.RemarkIsDecided
  intro tag index value s taken
  simp only [exec_remark taken, ← State.amendable_iff]
  refine ⟨fun hv => ?value, fun hv hf => ?notFound, fun r hv hf ho => ?accepted, fun r hv hf hc ha => ?protected_⟩
  case value => rw [decideRemark_value hv]
  case notFound => rw [decideRemark_notFound hv hf]
  case accepted => rw [decideRemark_accepted hv hf ho]; simp [Rst.update, State.setRst]
  case protected_ => rw [decideRemark_protected hv hf hc ha]
end

section
/-! PROOFS. Corrections become steps (R82 to R85): the residue a total leaves, what a merge does to an output,
and the state after it. -/

open Sys2Proof Sys2Proof.Machine

namespace Sys2Proof.Machine

/-! ### A value limited to a symmetric range -/

section
variable {x m : Int}

theorem clampInt_of_natAbs_le (h : x.natAbs ≤ m) : clampInt (-m) m x = x := by
  rw [clampInt, if_neg (by omega), if_neg (by omega)]

/-- A value beyond the range goes to the end on its own side. -/
theorem clampInt_of_lt_natAbs (hm : 0 ≤ m) (h : m < x.natAbs) : clampInt (-m) m x = x.sign * m := by
  rw [clampInt]
  rcases lt_or_gt_of_ne (show x ≠ 0 by omega) with neg | pos
  · rw [if_pos (by omega), Int.sign_eq_neg_one_of_neg neg, Int.neg_one_mul]
  · rw [if_neg (by omega), if_pos (by omega), Int.sign_eq_one_of_pos pos, Int.one_mul]

end

/-! ### The residue of a total (R82) -/

theorem scaleTotal_eq (total : Int) : scaleTotal total = (total.tdiv 128, total.tmod 128) := by
  rw [scaleTotal, Int.tmod_def]

theorem tmod_128_natAbs_le (total : Int) : (total.tmod 128).natAbs ≤ 127 := by
  rw [Int.natAbs_tmod]
  exact Nat.le_of_lt_succ (Nat.mod_lt _ (by decide))

/-- Truncation toward zero leaves a residue on the total's side of 0. -/
theorem tmod_128_sign (total : Int) : total.tmod 128 = 0 ∨ (total.tmod 128).sign = total.sign := by
  by_cases whole : 128 ∣ total
  · exact .inl (Int.tmod_eq_zero_of_dvd whole)
  · exact .inr ((Int.sign_tmod total 128).trans (if_neg whole))

/-! ### Another pending count (R84, R85) -/

section
variable {t : Trim} {inverted : Bool} {p : Int}

/-- A new pending count changes, beside itself, at most the accumulator and the direction line. -/
theorem Trim.setPending_frame : t.setPending inverted p = { t with
    pending := p, acc := (t.setPending inverted p).acc, line := (t.setPending inverted p).line } := by
  unfold Trim.setPending
  split
  next zero => rw [zero]
  next => split <;> rfl

@[simp] theorem Trim.setPending_pending : (t.setPending inverted p).pending = p := by
  rw [setPending_frame]
@[simp] theorem Trim.setPending_residue : (t.setPending inverted p).residue = t.residue := by
  rw [setPending_frame]
@[simp] theorem Trim.setPending_forward : (t.setPending inverted p).forward = t.forward := by
  rw [setPending_frame]
@[simp] theorem Trim.setPending_reverse : (t.setPending inverted p).reverse = t.reverse := by
  rw [setPending_frame]
@[simp] theorem Trim.setPending_saturations : (t.setPending inverted p).saturations = t.saturations := by
  rw [setPending_frame]
@[simp] theorem Trim.setPending_dropped : (t.setPending inverted p).dropped = t.dropped := by
  rw [setPending_frame]

theorem Trim.setPending_zero : t.setPending inverted 0 = { t with pending := 0, acc := 0 } := rfl

theorem lineFor_eq : lineFor inverted p = if inverted then decide (0 < p) else decide (p < 0) := by
  cases inverted <;> rfl

/-- The model's test for a kept direction says that the signs agree. -/
theorem sameDirection_iff {old new : Int} (h0 : new ≠ 0) :
    (old ≠ 0 ∧ (old < 0 ↔ new < 0)) ↔ new.sign = old.sign := by
  rw [eq_comm (a := new.sign)]
  rcases lt_or_gt_of_ne h0 with neg | pos
  · rw [Int.sign_eq_neg_one_of_neg neg, Int.sign_eq_neg_one_iff_neg]; omega
  · rw [Int.sign_eq_one_of_pos pos, Int.sign_eq_one_iff_pos]; omega

theorem Trim.setPending_sameSign (h0 : p ≠ 0) (h : p.sign = t.pending.sign) :
    t.setPending inverted p = { t with pending := p } := by
  rw [Trim.setPending, if_neg h0, if_pos ((sameDirection_iff h0).mpr h)]

theorem Trim.setPending_newSign (h0 : p ≠ 0) (h : p.sign ≠ t.pending.sign) :
    t.setPending inverted p = { t with pending := p, acc := 0, line := lineFor inverted p } := by
  rw [Trim.setPending, if_neg h0, if_neg (mt (sameDirection_iff h0).mp h)]

end

/-! ### Steps merged into an output (R83) -/

theorem droppedSteps_eq (sum : Int) : droppedSteps sum = sum.natAbs - 4095 := rfl

theorem droppedSteps_eq_zero_iff (sum : Int) : droppedSteps sum = 0 ↔ sum.natAbs ≤ 4095 := by
  rw [droppedSteps_eq]; omega

section
variable {t : Trim} {inverted : Bool} {steps : Int}

theorem Trim.merge_within (h : (t.pending + steps).natAbs ≤ 4095) :
    t.merge inverted steps = t.setPending inverted (t.pending + steps) := by
  have none_dropped : droppedSteps (t.pending + steps) = 0 := (droppedSteps_eq_zero_iff _).mpr h
  have in_range : clampInt (-pendingMax) pendingMax (t.pending + steps) = t.pending + steps :=
    clampInt_of_natAbs_le (by rw [pendingMax]; omega)
  simp only [Trim.merge, none_dropped, in_range, if_true]

theorem Trim.merge_beyond (h : 4095 < (t.pending + steps).natAbs) :
    t.merge inverted steps = { t.setPending inverted ((t.pending + steps).sign * 4095) with
      saturations := bump t.saturations
      dropped := bump t.dropped (droppedSteps (t.pending + steps)) } := by
  have some_dropped : droppedSteps (t.pending + steps) ≠ 0 :=
    mt (droppedSteps_eq_zero_iff _).mp (Nat.not_le.mpr h)
  have at_end : clampInt (-pendingMax) pendingMax (t.pending + steps) = (t.pending + steps).sign * 4095 :=
    clampInt_of_lt_natAbs (by decide) (by rw [pendingMax]; omega)
  simp only [Trim.merge, some_dropped, at_end, if_false, setPending_saturations, setPending_dropped]

/-- A merge that drops steps stops P at ±4,095, on the side of the sum, and counts itself and them. -/
theorem Trim.merge_saturated (h : 4095 < (t.pending + steps).natAbs) :
    let new := t.merge inverted steps
    new.pending.natAbs = 4095 ∧ new.pending.sign = (t.pending + steps).sign ∧
      new.saturations = bump t.saturations ∧ new.dropped = bump t.dropped (droppedSteps (t.pending + steps)) := by
  have nonzero : t.pending + steps ≠ 0 := by omega
  simp only [merge_beyond h, setPending_pending, and_true]
  constructor
  · rw [Int.natAbs_mul, Int.natAbs_sign_of_ne_zero nonzero]; rfl
  · rw [Int.sign_mul, Int.sign_sign]; exact Int.mul_one _

variable (t inverted steps)

/-- A merge sets the pending count it answers, and beside that touches the two counts of saturation only. -/
theorem Trim.merge_frame :
    let new := t.merge inverted steps
    new.residue = t.residue ∧ new.forward = t.forward ∧ new.reverse = t.reverse ∧
      new.acc = (t.setPending inverted new.pending).acc ∧ new.line = (t.setPending inverted new.pending).line := by
  rcases le_or_gt (t.pending + steps).natAbs 4095 with within | beyond
  · rw [merge_within within]; simp
  · rw [merge_beyond beyond]; simp

/-- The accumulator and the direction line follow the sign of P (R84, R85). -/
theorem Trim.merge_direction :
    let new := t.merge inverted steps
    (new.pending = 0 → new.acc = 0 ∧ new.line = t.line) ∧
    (new.pending ≠ 0 → new.pending.sign = t.pending.sign → new.acc = t.acc ∧ new.line = t.line) ∧
    (new.pending ≠ 0 → new.pending.sign ≠ t.pending.sign →
      new.acc = 0 ∧ new.line = lineFor inverted new.pending) := by
  obtain ⟨_, _, _, acc, line⟩ := merge_frame t inverted steps
  simp only [acc, line]
  refine ⟨fun h0 => ?zero, fun h0 same => ?same, fun h0 turned => ?turned⟩
  case zero => rw [h0, setPending_zero]; exact ⟨rfl, rfl⟩
  case same => rw [setPending_sameSign h0 same]; exact ⟨rfl, rfl⟩
  case turned => rw [setPending_newSign h0 turned]; exact ⟨rfl, rfl⟩

end

/-- An output that holds another residue. -/
def Trim.setResidue (t : Trim) (r : Int) : Trim := { t with residue := r }

/-! ### The state after a merge and after a correction (R82, R83) -/

/-- A notice does not depend on the trim outputs. -/
theorem raise_setTrim (b : NoticeBody) (i : Fin 8) (t : Trim) (s : State) :
    raise b (setTrim i t s) =
      { s with tou := { s.tou with trims := s.tou.trims.set i t }, link := (raise b s).link } := rfl

/-- A merge into output `i` replaces that output, and raises a notice when steps were dropped. -/
theorem mergeSteps_eq (i : Fin 8) (steps : Int) (source : Option (Fin 8)) (s : State) :
    let new := s.tou.trims[i].merge s.act.trims[i].inverted steps
    let dropped := droppedSteps (s.tou.trims[i].pending + steps)
    mergeSteps i steps source s = { s with
      tou := { s.tou with trims := s.tou.trims.set i new }
      link := if dropped = 0 then s.link else (raise (.trimSat i dropped new.pending source) s).link } := by
  simp only [mergeSteps]
  split
  · rfl
  · rw [raise_setTrim]

/-- A correction merges its whole steps into the output that holds the new residue. -/
theorem correctTrim_eq (i : Fin 8) (c : Int) (s : State) :
    let total := s.tou.trims[i].residue + c * s.act.trims[i].scale
    let new := (s.tou.trims[i].setResidue (total.tmod 128)).merge s.act.trims[i].inverted (total.tdiv 128)
    let dropped := droppedSteps (s.tou.trims[i].pending + total.tdiv 128)
    correctTrim i c s = { s with
      tou := { s.tou with trims := s.tou.trims.set i new }
      link := if dropped = 0 then s.link else (raise (.trimSat i dropped new.pending (some i)) s).link } := by
  simp [correctTrim, scaleTotal_eq, mergeSteps_eq, setTrim, State.setTou, raise, Trim.setResidue]

end Sys2Proof.Machine

/-- Settles O33: the total divided with truncation, and its whole steps merged into the output. -/
theorem correctionsBecomeSteps : Obligations.CorrectionsBecomeSteps := by
  unfold Obligations.CorrectionsBecomeSteps
  intro i c s old t new total steps sum
  have after : t = { s with
      tou := { s.tou with
        trims := s.tou.trims.set i ((old.setResidue (total.tmod 128)).merge s.act.trims[i].inverted steps) }
      link := if droppedSteps sum = 0 then s.link else (raise (.trimSat i (droppedSteps sum)
        ((old.setResidue (total.tmod 128)).merge s.act.trims[i].inverted steps).pending (some i)) s).link } :=
    correctTrim_eq i c s
  have output : new = (old.setResidue (total.tmod 128)).merge s.act.trims[i].inverted steps := by
    simp only [new, after, Fin.getElem_fin, Vector.getElem_set_self]
  obtain ⟨residue, forward, reverse, -, -⟩ :=
    Trim.merge_frame (old.setResidue (total.tmod 128)) s.act.trims[i].inverted steps
  obtain ⟨zero, same, turned⟩ :=
    Trim.merge_direction (old.setResidue (total.tmod 128)) s.act.trims[i].inverted steps
  rw [← output] at after residue forward reverse zero same turned
  rw [lineFor_eq] at turned
  refine ⟨?total, ?bound, ?sign, fun within => ?within, fun beyond => ?beyond, zero, same, turned, forward,
    reverse, fun j apart => ?others, ?frame⟩
  case total => rw [residue]; exact (Int.mul_tdiv_add_tmod total 128).symm
  case bound => rw [residue]; exact tmod_128_natAbs_le total
  case sign => rw [residue]; exact tmod_128_sign total
  case within =>
    have link : t.link = s.link := by
      rw [after, if_pos ((droppedSteps_eq_zero_iff sum).mpr within)]
    rw [output, Trim.merge_within (t := old.setResidue (total.tmod 128)) within]
    simp only [Trim.setPending_pending, Trim.setPending_saturations, Trim.setPending_dropped]
    exact ⟨rfl, rfl, rfl, link⟩
  case beyond =>
    have link : t.link = (raise (.trimSat i (droppedSteps sum) new.pending (some i)) s).link := by
      rw [after, if_neg (mt (droppedSteps_eq_zero_iff sum).mp (Nat.not_le.mpr beyond))]
    obtain ⟨atEnd, side, saturations, dropped⟩ := Trim.merge_saturated
      (t := old.setResidue (total.tmod 128)) (inverted := s.act.trims[i].inverted) beyond
    rw [← output] at atEnd side saturations dropped
    exact ⟨atEnd, side, saturations, dropped, link⟩
  case others =>
    rw [after]
    exact Vector.getElem_set_ne i.isLt j.isLt fun same => apart (Fin.ext same.symm)
  case frame => simp [after]
end

section
/-! PROOFS. ΔE and the grade (R153, R156): what the search for a square root keeps, the root as the library's
`Nat.sqrt`, and the grade by the conditions of the grade table. -/

open Sys2Proof Sys2Proof.Machine

namespace Sys2Proof.Machine

/-! ### The integer square root (R153) -/

/-- With the root of `n` from `r` up and below `r + 2 ^ k`, trying the low `k` bits finds it: each bit tried halves
the range. -/
theorem isqrtBits_eq_sqrt {n : Nat} : ∀ {k r : Nat}, r * r ≤ n → n < (r + 2 ^ k) * (r + 2 ^ k) →
    isqrtBits k n r = n.sqrt
  | 0, _, low, high => Nat.eq_sqrt.mpr ⟨low, high⟩
  | k + 1, r, low, high => by
    rw [isqrtBits]
    split
    next kept =>
      have upper : r + 2 ^ k + 2 ^ k = r + 2 ^ (k + 1) := by rw [pow_succ]; omega
      exact isqrtBits_eq_sqrt kept (by rwa [upper])
    next dropped => exact isqrtBits_eq_sqrt low (Nat.lt_of_not_le dropped)

/-- Half the bits of `n`, rounded up, are enough for its root. -/
theorem lt_sq_two_pow_log2 (n : Nat) : n < 2 ^ (n.log2 / 2 + 1) * 2 ^ (n.log2 / 2 + 1) :=
  calc n < 2 ^ (n.log2 + 1) := Nat.lt_log2_self
    _ ≤ 2 ^ ((n.log2 / 2 + 1) + (n.log2 / 2 + 1)) := Nat.pow_le_pow_right (by decide) (by omega)
    _ = _ := pow_add ..

theorem isqrt_eq_sqrt (n : Nat) : isqrt n = n.sqrt :=
  isqrtBits_eq_sqrt (Nat.zero_le n) (by simpa using lt_sq_two_pow_log2 n)

/-! ### The colour difference (R153) -/

/-- The sum of squares that ΔE is the root of. -/
def squareSum (l1 a1 b1 l2 a2 b2 : Int) : Int :=
  (l1 - l2) * (l1 - l2) + (a1 - a2) * (a1 - a2) + (b1 - b2) * (b1 - b2)

section
variable (l1 a1 b1 l2 a2 b2 : Int)

theorem squareSum_nonneg : 0 ≤ squareSum l1 a1 b1 l2 a2 b2 :=
  add_nonneg (add_nonneg (mul_self_nonneg _) (mul_self_nonneg _)) (mul_self_nonneg _)

theorem deltaE_eq_sqrt : deltaE l1 a1 b1 l2 a2 b2 = (squareSum l1 a1 b1 l2 a2 b2).toNat.sqrt :=
  isqrt_eq_sqrt _

theorem deltaE_sq_le :
    (deltaE l1 a1 b1 l2 a2 b2 : Int) * deltaE l1 a1 b1 l2 a2 b2 ≤ squareSum l1 a1 b1 l2 a2 b2 := by
  rw [deltaE_eq_sqrt, ← Int.natCast_mul]
  exact (Int.le_toNat (squareSum_nonneg ..)).mp (Nat.sqrt_le _)

theorem squareSum_lt_deltaE_succ_sq : squareSum l1 a1 b1 l2 a2 b2 <
    ((deltaE l1 a1 b1 l2 a2 b2 : Int) + 1) * (deltaE l1 a1 b1 l2 a2 b2 + 1) := by
  rw [deltaE_eq_sqrt, ← Int.natCast_succ, ← Int.natCast_mul]
  exact (Int.toNat_lt (squareSum_nonneg ..)).mp (Nat.lt_succ_sqrt _)

end

section
variable {l1 a1 b1 l2 a2 b2 : Int}

/-- 10,000² + 25,400² + 25,400² is less than 37,287², by 369. -/
theorem deltaE_le (hl : (l1 - l2).natAbs ≤ 10000) (ha : (a1 - a2).natAbs ≤ 25400)
    (hb : (b1 - b2).natAbs ≤ 25400) : deltaE l1 a1 b1 l2 a2 b2 ≤ 37286 := by
  have sum : squareSum l1 a1 b1 l2 a2 b2 ≤ 10000 * 10000 + 25400 * 25400 + 25400 * 25400 :=
    add_le_add (add_le_add (Int.natAbs_le_iff_mul_self_le.mp hl) (Int.natAbs_le_iff_mul_self_le.mp ha))
      (Int.natAbs_le_iff_mul_self_le.mp hb)
  rw [deltaE_eq_sqrt]
  exact Nat.le_of_lt_succ (Nat.sqrt_lt.mpr (by omega))

end

/-! ### The grade (R156) -/

/-- The condition of grade R. -/
def GradeSettings.Rejects (cfg : GradeSettings) (mode : RollMode) (shade : Option RollShade) (d : Defects) : Prop :=
  mode = .length ∨ shade = none ∨ d.wrongRepeat ≠ 0 ∨ (∃ x, shade = some x ∧ cfg.rejectSpread < x.spread) ∨
    cfg.bLimit < d.repeats

/-- The condition of grade A for a roll that is not R. -/
def GradeSettings.Faultless (cfg : GradeSettings) (shade : Option RollShade) (d : Defects) : Prop :=
  d.repeats = 0 ∧ ∃ x, shade = some x ∧ x.spread ≤ cfg.bSpread

section
variable {cfg : GradeSettings} {mode : RollMode} {x : RollShade} {shade : Option RollShade} {d : Defects}

theorem GradeSettings.rejects_none : cfg.Rejects mode none d := .inr (.inl rfl)

theorem GradeSettings.rejects_some : cfg.Rejects mode (some x) d ↔
    mode = .length ∨ d.wrongRepeat ≠ 0 ∨ cfg.rejectSpread < x.spread ∨ cfg.bLimit < d.repeats := by
  simp [GradeSettings.Rejects]

theorem GradeSettings.faultless_some : cfg.Faultless (some x) d ↔ d.repeats = 0 ∧ x.spread ≤ cfg.bSpread := by
  simp [GradeSettings.Faultless]

theorem gradeOf_some [Decidable (cfg.Rejects mode (some x) d)] [Decidable (cfg.Faultless (some x) d)] :
    gradeOf cfg mode (some x) d =
      if cfg.Rejects mode (some x) d then .r else if cfg.Faultless (some x) d then .a else .b := by
  simp [gradeOf, GradeSettings.rejects_some, GradeSettings.faultless_some, or_assoc]

/-- The grade table, its rows in order. -/
theorem gradeOf_eq [Decidable (cfg.Rejects mode shade d)] [Decidable (cfg.Faultless shade d)] :
    gradeOf cfg mode shade d =
      if cfg.Rejects mode shade d then .r else if cfg.Faultless shade d then .a else .b := by
  cases shade with
  | none => exact (if_pos GradeSettings.rejects_none).symm
  | some x => exact gradeOf_some

end

end Sys2Proof.Machine

/-- Settles O49: ΔE is the library's square root of the sum, and the grade takes the rows of its table in order. -/
theorem deltaEAndGrade : Obligations.DeltaEAndGrade := by
  refine ⟨fun l1 a1 b1 l2 a2 b2 => ⟨deltaE_sq_le .., squareSum_lt_deltaE_succ_sq .., ?bound⟩,
    fun cfg mode shade d => ?grade⟩
  case bound =>
    rintro ⟨l1Low, l1High, l2Low, l2High, ha1, ha2, hb1, hb2⟩
    exact deltaE_le (by omega) (by omega) (by omega)
  case grade =>
    classical
    rw [gradeOf_eq]
    change (_ ↔ cfg.Rejects mode shade d) ∧ (_ ↔ ¬ cfg.Rejects mode shade d ∧ cfg.Faultless shade d) ∧
      (_ ↔ ¬ cfg.Rejects mode shade d ∧ ¬ cfg.Faultless shade d)
    by_cases rejected : cfg.Rejects mode shade d
    · simp [rejected]
    · by_cases faultless : cfg.Faultless shade d <;> simp [rejected, faultless]
end
